-- ==== Sys2Proof/Word.lean ====
section
/-! DEFINITION. The words of the hardware and the two shapes of bytes every rule speaks of:
a column of four bytes and a block of sixteen (00_scope.md R13, R14). -/

namespace Sys2Proof

/-- An 8-bit unsigned value (R13). -/
abbrev Byte := BitVec 8

/-- A 32-bit bus word (20_memory.md R60). -/
abbrev Word := BitVec 32

/-- A 4-bit field: CMD or IDX of a command word (30_encoding.md R91). -/
abbrev Nibble := BitVec 4

/-- A word offset into the register space, 6 bits (20_memory.md R60). -/
abbrev Offset := BitVec 6

/-- A column of the 4x4 State matrix; `r0` is the byte in row 0 (00_scope.md R14). -/
structure Column where
  r0 : Byte
  r1 : Byte
  r2 : Byte
  r3 : Byte
deriving DecidableEq, Repr

/-- A 16-byte value as the four columns of the State matrix:
column `c` holds the bytes `b[4c] .. b[4c+3]` (00_scope.md R14). -/
structure Block where
  c0 : Column
  c1 : Column
  c2 : Column
  c3 : Column
deriving DecidableEq, Repr

/-- The index of a round key, 0..10: a type "unable to exceed 10" (30_encoding.md R99). -/
abbrev RoundIndex := Fin 11

/-- A round-key schedule: exactly eleven round keys (10_state.md R24). -/
abbrev Schedule := Vector Block 11

end Sys2Proof
end

