-- ==== Sys2Proof/Syntax.lean ====
section
/-! DEFINITION. The commands of the hardware: one constructor per row of spec/opcode_table.json
(30_encoding.md R93). -/

namespace Sys2Proof

/-- A command word, decoded. `idx` is the word's IDX field, bits 11:8 (R91). The indexed commands
(`addRoundKey`, `encRound`, `decRound`) use it. The others ignore it (R92), but acceptance
stores it in `inflight` all the same (R98), so each of them carries it too. NOP stores nothing.
DEDUCED, safe: log entry 9. -/
inductive Instr where
  /-- CMD 0x0: nothing (44_block_cipher.md R230). -/
  | nop
  /-- CMD 0x1: `rk <- KeyExpansion(key); key_valid <- 1` (41_key_schedule.md R150). -/
  | keyExpand (idx : Nibble)
  /-- CMD 0x2: `state <- Cipher(state, rk)` (44_block_cipher.md R232). -/
  | encrypt (idx : Nibble)
  /-- CMD 0x3: `state <- InvCipher(state, rk)` (44_block_cipher.md R234). -/
  | decrypt (idx : Nibble)
  /-- CMD 0x4: `state <- SubBytes(state)` (42_round_transform.md R171). -/
  | subBytes (idx : Nibble)
  /-- CMD 0x5: `state <- ShiftRows(state)` (42_round_transform.md R173). -/
  | shiftRows (idx : Nibble)
  /-- CMD 0x6: `state <- MixColumns(state)` (42_round_transform.md R175). -/
  | mixColumns (idx : Nibble)
  /-- CMD 0x7: `state <- AddRoundKey(state, rk[idx])` (42_round_transform.md R177). -/
  | addRoundKey (idx : Nibble)
  /-- CMD 0x8: `state <- InvSubBytes(state)` (43_round_inverse.md R201). -/
  | invSubBytes (idx : Nibble)
  /-- CMD 0x9: `state <- InvShiftRows(state)` (43_round_inverse.md R203). -/
  | invShiftRows (idx : Nibble)
  /-- CMD 0xA: `state <- InvMixColumns(state)` (43_round_inverse.md R205). -/
  | invMixColumns (idx : Nibble)
  /-- CMD 0xB: `state <- EncRound(state, rk, idx)` (42_round_transform.md R179). -/
  | encRound (idx : Nibble)
  /-- CMD 0xC: `state <- DecRound(state, rk, idx)` (43_round_inverse.md R207). -/
  | decRound (idx : Nibble)
deriving DecidableEq, Repr

end Sys2Proof
end

