-- ==== Sys2Proof/Decode.lean ====
section
/-! DEFINITION. The decoder of command words, total on every 32-bit word and rejecting the reserved
ones by name, and the encoder (30_encoding.md R90 to R97, R104). -/

namespace Sys2Proof

/-- Why a word is no command. -/
inductive DecodeError where
  /-- CMD is one of the reserved values 0xD, 0xE, 0xF (R94). -/
  | reservedCommand (cmd : Nibble)
deriving DecidableEq, Repr

/-- CMD = bits 3:0 of the command word (R91). -/
def cmdField (v : Word) : Nibble := v.extractLsb' 0 4

/-- IDX = bits 11:8 of the command word (R91). -/
def idxField (v : Word) : Nibble := v.extractLsb' 8 4

/-- The command that a CMD and an IDX field stand for: the opcode map R93. -/
def decodeFields (cmd idx : Nibble) : Except DecodeError Instr :=
  match cmd.toNat with
  | 0x0 => .ok .nop
  | 0x1 => .ok (.keyExpand idx)
  | 0x2 => .ok (.encrypt idx)
  | 0x3 => .ok (.decrypt idx)
  | 0x4 => .ok (.subBytes idx)
  | 0x5 => .ok (.shiftRows idx)
  | 0x6 => .ok (.mixColumns idx)
  | 0x7 => .ok (.addRoundKey idx)
  | 0x8 => .ok (.invSubBytes idx)
  | 0x9 => .ok (.invShiftRows idx)
  | 0xA => .ok (.invMixColumns idx)
  | 0xB => .ok (.encRound idx)
  | 0xC => .ok (.decRound idx)
  | _ => .error (.reservedCommand cmd)

/-- The decoder "reads only v", and of it only CMD and IDX: bits 31:12 and 7:4 are ignored
(R90, R95). -/
def decode (v : Word) : Except DecodeError Instr := decodeFields (cmdField v) (idxField v)

/-- The CMD value of a command (R93). -/
def Instr.code : Instr → Nibble
  | .nop => 0x0
  | .keyExpand _ => 0x1
  | .encrypt _ => 0x2
  | .decrypt _ => 0x3
  | .subBytes _ => 0x4
  | .shiftRows _ => 0x5
  | .mixColumns _ => 0x6
  | .addRoundKey _ => 0x7
  | .invSubBytes _ => 0x8
  | .invShiftRows _ => 0x9
  | .invMixColumns _ => 0xA
  | .encRound _ => 0xB
  | .decRound _ => 0xC

/-- The IDX field of a command; for NOP, which keeps none, software writes 0 (R103). -/
def Instr.index : Instr → Nibble
  | .nop => 0
  | .keyExpand idx => idx
  | .encrypt idx => idx
  | .decrypt idx => idx
  | .subBytes idx => idx
  | .shiftRows idx => idx
  | .mixColumns idx => idx
  | .addRoundKey idx => idx
  | .invSubBytes idx => idx
  | .invShiftRows idx => idx
  | .invMixColumns idx => idx
  | .encRound idx => idx
  | .decRound idx => idx

/-- A command word from its two fields, the reserved bits 31:12 and 7:4 written as 0 (R91): the
`(n << 8) | CMD` of R103. -/
def encodeFields (cmd idx : Nibble) : Word := (idx.setWidth 32 <<< 8) ||| cmd.setWidth 32

/-- The command word that software writes for a command (R103, R104). -/
def encode (i : Instr) : Word := encodeFields i.code i.index

/-- The command that the decoder reads from a word of the opcode table: its one 32-bit word, with
every bit above `nbits` 0. -/
def decodeTableWord (nbits w : Nat) : Option Instr :=
  match decode (BitVec.ofNat 32 (w % 2 ^ nbits)) with
  | .ok i => some i
  | .error _ => none

end Sys2Proof
end

