-- ==== Sys2Proof/Machine/State.lean ====
section
/-! DEFINITION. The state of the hardware, all of 10_state.md R21, and beside it the pins and the
steps still to be taken that the model itself needs; the reasons a step can stop; reset. -/

namespace Sys2Proof.Machine

/-- The command being executed and its index field (10_state.md R33). -/
structure InFlight where
  cmd : Nibble
  idx : Nibble
deriving DecidableEq, Repr

/-- A host bus access (00_scope.md R9, 20_memory.md R66 and R67). -/
inductive BusAccess where
  | read (off : Offset)
  | write (off : Offset) (v : Word)
deriving DecidableEq, Repr

/-- One atomic step of one agent (00_scope.md R9). -/
inductive Event where
  /-- The Host makes a bus access. -/
  | host (a : BusAccess)
  /-- The Core takes its enabled step, GEN_DONE or CMD_DONE; with none enabled, nothing happens. -/
  | core
  /-- The Environment pulls `rst_n` low (70_reset_and_hazards.md R290). -/
  | resetLow
  /-- The Environment releases `rst_n`: the step RESET (R290). -/
  | reset
deriving DecidableEq, Repr

/-- Which of the two atomic steps of a command's life `exec` is to take: the host's CTRL write
presents it (Accept, 30_encoding.md R98), or the Core completes it (CMD_DONE, R101).
The model's own. DESIGN CHOICE, safe: log entry 4. -/
inductive Phase where
  | presented
  | completing
deriving DecidableEq, Repr

/-- The state: first every element of 10_state.md R21, then the model's own fields. -/
structure State where
  /-- KEY (R22). -/
  key : Block
  /-- STATE (R23). -/
  state : Block
  /-- The round-key file `rk[0..10]` (R24). -/
  rk : Schedule
  /-- `key_valid` (R31). -/
  keyValid : Bool
  /-- `sbox_ready` (R32). -/
  sboxReady : Bool
  /-- `inflight` (R33). -/
  inflight : Option InFlight
  /-- `done` (R34). -/
  done : Bool
  /-- `err`, a code of 60_exceptions.md R262 (R35). -/
  err : BitVec 3
  /-- `ie_done` (R26). -/
  ieDone : Bool
  /-- `ie_err` (R26). -/
  ieErr : Bool
  /-- `sq_x`, the byte of the S-box query port (R29). -/
  sqX : Byte
  /-- `gf_a`, an operand of the GF(256) query port (R30). -/
  gfA : Byte
  /-- `gf_b`, the other operand (R30). -/
  gfB : Byte
  /-- The level of the pin `rst_n` (92_eei_decisions.md D2). The model's own: log entry 5. -/
  rstN : Bool
  /-- The value the last bus read returned, `bus_rdata` of D2. The model's own: log entry 3. -/
  rdata : Word
  /-- The model's own: log entry 4. -/
  phase : Phase
  /-- The steps the agents are to take, oldest first. The model's own: log entry 1. -/
  events : List Event
deriving DecidableEq, Repr

/-- Why the machine stops. -/
inductive Fault where
  /-- Raised by CMD_DONE, and by the completing phase of an indexed command: the pair in flight is
  one that acceptance never puts there (CMD 0x0 or 0xD..0xF, or an indexed command with
  idx > 10), and "no rule applies it there" (R99, R101). Safe: log entry 6. -/
  | notAcceptable
deriving DecidableEq, Repr

/-- Why an instruction has no meaning. -/
inductive Refusal where
  /-- Raised by an arm of `exec` for a command that is not modelled yet; none is left. Safe. -/
  | notModelled (mnemonic : String)
deriving DecidableEq, Repr

/-- The column of four zero bytes. -/
def zeroColumn : Column := ⟨0, 0, 0, 0⟩

/-- The block of sixteen zero bytes. -/
def zeroBlock : Block := ⟨zeroColumn, zeroColumn, zeroColumn, zeroColumn⟩

/-- The machine right after RESET: every element of R21 at its reset value. The model's own fields
are at the values that log entries 1, 3, 4 and 5 name. -/
def State.reset : State where
  key := zeroBlock
  state := zeroBlock
  rk := Vector.replicate 11 zeroBlock
  keyValid := false
  sboxReady := false
  inflight := none
  done := false
  err := 0
  ieDone := false
  ieErr := false
  sqX := 0
  gfA := 0
  gfB := 0
  rstN := true
  rdata := 0
  phase := .presented
  events := []

end Sys2Proof.Machine
end

