-- ==== Sys2Proof/Machine/Operands.lean ====
section
/-! DEFINITION. The operand forms: bytes, columns and blocks (00_scope.md R14, R15), their packing into
bus words (20_memory.md R62), the round index (30_encoding.md R92), and the register a bus offset
names (20_memory.md R61). -/

namespace Sys2Proof

/-- The byte of a column in row `r` (00_scope.md R14). -/
def Column.row (t : Column) (r : Fin 4) : Byte :=
  match r with
  | 0 => t.r0
  | 1 => t.r1
  | 2 => t.r2
  | 3 => t.r3

/-- Bytewise exclusive OR of columns (41_key_schedule.md R155). -/
def Column.xor (t u : Column) : Column :=
  ⟨t.r0 ^^^ u.r0, t.r1 ^^^ u.r1, t.r2 ^^^ u.r2, t.r3 ^^^ u.r3⟩

/-- A function on bytes, applied to every byte of a column. -/
def Column.map (f : Byte → Byte) (t : Column) : Column := ⟨f t.r0, f t.r1, f t.r2, f t.r3⟩

/-- The 32-bit word `{b3, b2, b1, b0}` of four bytes, the most significant first (00_scope.md R13). -/
def packBytes (b3 b2 b1 b0 : Byte) : Word :=
  (b3.setWidth 32 <<< 24) ||| (b2.setWidth 32 <<< 16) ||| (b1.setWidth 32 <<< 8) ||| b0.setWidth 32

/-- One bit, in bit `n` of a word that is 0 elsewhere. -/
def bitAt (n : Nat) (b : Bool) : Word := (BitVec.ofBool b).setWidth 32 <<< n

/-- The bus word of a column: row 0 in bits 31:24, row 3 in bits 7:0 (20_memory.md R62). -/
def Column.word (t : Column) : Word := packBytes t.r0 t.r1 t.r2 t.r3

/-- The column a bus word holds (20_memory.md R62). -/
def Column.ofWord (v : Word) : Column :=
  ⟨v.extractLsb' 24 8, v.extractLsb' 16 8, v.extractLsb' 8 8, v.extractLsb' 0 8⟩

/-- Column `k` of a block: the bytes `b[4k] .. b[4k+3]` (00_scope.md R14). -/
def Block.col (b : Block) (k : Fin 4) : Column :=
  match k with
  | 0 => b.c0
  | 1 => b.c1
  | 2 => b.c2
  | 3 => b.c3

/-- A block with column `k` replaced. -/
def Block.setCol (b : Block) (k : Fin 4) (t : Column) : Block :=
  match k with
  | 0 => { b with c0 := t }
  | 1 => { b with c1 := t }
  | 2 => { b with c2 := t }
  | 3 => { b with c3 := t }

/-- `s[r][c]`, the byte in row `r` and column `c` (00_scope.md R14). -/
def Block.cell (b : Block) (r c : Fin 4) : Byte := (b.col c).row r

/-- `b[i]`, flat byte `i`: row `i mod 4`, column `i div 4` (00_scope.md R14). -/
def Block.byte (b : Block) (i : Fin 16) : Byte :=
  b.cell ⟨i.val % 4, by omega⟩ ⟨i.val / 4, by omega⟩

/-- Bytewise exclusive OR of blocks. -/
def Block.xor (b k : Block) : Block :=
  ⟨b.c0.xor k.c0, b.c1.xor k.c1, b.c2.xor k.c2, b.c3.xor k.c3⟩

/-- A function on bytes, applied to every byte of a block. -/
def Block.map (f : Byte → Byte) (b : Block) : Block :=
  ⟨b.c0.map f, b.c1.map f, b.c2.map f, b.c3.map f⟩

/-- A function on columns, applied to every column of a block. -/
def Block.mapCols (f : Column → Column) (b : Block) : Block := ⟨f b.c0, f b.c1, f b.c2, f b.c3⟩

/-- The bus word `word(k)` of a 16-byte value (20_memory.md R62). -/
def Block.word (b : Block) (k : Fin 4) : Word := (b.col k).word

/-- A write of `v` to word `k` of a 16-byte value (20_memory.md R62). -/
def Block.setWord (b : Block) (k : Fin 4) (v : Word) : Block := b.setCol k (Column.ofWord v)

/-- The 16-byte value of four bus words, word 0 first (00_scope.md R15). -/
def Block.ofWords (w0 w1 w2 w3 : Word) : Block :=
  ⟨Column.ofWord w0, Column.ofWord w1, Column.ofWord w2, Column.ofWord w3⟩

/-- The 16-byte value written as 32 hex digits, `b[0]` first (00_scope.md R15). -/
def Block.ofHex (h : BitVec 128) : Block :=
  Block.ofWords (h.extractLsb' 96 32) (h.extractLsb' 64 32) (h.extractLsb' 32 32)
    (h.extractLsb' 0 32)

end Sys2Proof

namespace Sys2Proof.Machine

/-- The round index an IDX field stands for, if it is legal, 0..10 (30_encoding.md R92, R99). -/
def roundIndex (idx : Nibble) : Option RoundIndex :=
  if h : idx.toNat < 11 then some ⟨idx.toNat, h⟩ else none

/-- The registers of the address map (20_memory.md R61). -/
inductive Reg where
  | ctrl
  | status
  | cfg
  | ident
  | sboxq
  | gfmul
  | key (k : Fin 4)
  | state (k : Fin 4)
  | rk (i : RoundIndex) (k : Fin 4)
  /-- Offsets 0x06, 0x07 and 0x3C..0x3F (R68). -/
  | reserved
deriving DecidableEq, Repr

/-- The register at a word offset: the address map R61. RK(4i+k) stands at `0x10 + 4*i + k`
(10_state.md R24). -/
def Reg.ofOffset (off : Offset) : Reg :=
  let n := off.toNat
  if n = 0x00 then .ctrl
  else if n = 0x01 then .status
  else if n = 0x02 then .cfg
  else if n = 0x03 then .ident
  else if n = 0x04 then .sboxq
  else if n = 0x05 then .gfmul
  else if n < 0x08 then .reserved
  else if n < 0x0C then .key (Fin.ofNat 4 (n - 0x08))
  else if n < 0x10 then .state (Fin.ofNat 4 (n - 0x0C))
  else if n < 0x3C then .rk (Fin.ofNat 11 ((n - 0x10) / 4)) (Fin.ofNat 4 ((n - 0x10) % 4))
  else .reserved

end Sys2Proof.Machine
end

