-- ==== Sys2Proof/Machine/Gf.lean ====
section
/-! DEFINITION. GF(2^8) arithmetic and the affine transform (40_gf_sbox.md section 1), and the cycle
walk of the S-box generator (section 2). -/

namespace Sys2Proof.Machine

/-- `rotl8(x, n)`, the 8-bit left rotation (00_scope.md R13), for n in 0..7. -/
def rotl8 (x : Byte) (n : Nat) : Byte := (x <<< n) ||| (x >>> (8 - n))

/-- Doubling: shift left, keep 8 bits, and reduce by 0x1B when the pre-shift top bit was set
(40_gf_sbox.md R120). -/
def double (a : Byte) : Byte := if a.getLsbD 7 then (a <<< 1) ^^^ 0x1B else a <<< 1

/-- One turn of the loop of R120, for bit `j` of `b`; the pair is `(a, r)`. -/
def gmulStep (b : Byte) (ar : Byte × Byte) (j : Nat) : Byte × Byte :=
  (double ar.1, if b.getLsbD j then ar.2 ^^^ ar.1 else ar.2)

/-- `gmul(a, b)`: shift-and-add over the 8 bits of `b`, least significant first (R120). -/
def gmul (a b : Byte) : Byte := ([0, 1, 2, 3, 4, 5, 6, 7].foldl (gmulStep b) (a, 0)).2

/-- `xtime(a) = gmul(a, 0x02)` (R122). -/
def xtime (a : Byte) : Byte := gmul a 0x02

/-- The affine transform of the S-box (R124). -/
def affine (q : Byte) : Byte :=
  q ^^^ rotl8 q 1 ^^^ rotl8 q 2 ^^^ rotl8 q 3 ^^^ rotl8 q 4 ^^^ 0x63

/-- One turn of the generator's walk: `p <- gmul(p, 0x03); q <- gmul(q, 0xF6)` (R126). -/
def walkStep (pq : Byte × Byte) : Byte × Byte := (gmul pq.1 0x03, gmul pq.2 0xF6)

/-- The pair `(p, q) = (3^k, 3^-k)` after `k` turns, from `p = q = 1` (R125, R126). -/
def walk : Nat → Byte × Byte
  | 0 => (0x01, 0x01)
  | k + 1 => walkStep (walk k)

end Sys2Proof.Machine
end

