-- ==== Sys2Proof/Machine/Flags.lean ====
section
/-! DEFINITION. The flags and derived outputs: BUSY, irq, the STATUS, CFG, SBOXQ and GFMUL read
values, and the error codes (10_state.md R25 to R37, 60_exceptions.md R262). -/

namespace Sys2Proof.Machine

/-- ILLEGAL_CMD (R262). -/
def errIllegalCmd : BitVec 3 := 1
/-- BAD_INDEX (R262). -/
def errBadIndex : BitVec 3 := 2
/-- NO_KEY (R262). -/
def errNoKey : BitVec 3 := 3
/-- BUSY (R262). -/
def errBusy : BitVec 3 := 4
/-- WR_BUSY (R262). -/
def errWrBusy : BitVec 3 := 5

/-- `BUSY = (sbox_ready = 0) or (inflight != none)`, derived, not stored (R25). -/
def State.busy (s : State) : Bool := !s.sboxReady || s.inflight.isSome

/-- `irq = (ie_done & done) | (ie_err & (err != 0))` (R37, R266). -/
def State.irq (s : State) : Bool := (s.ieDone && s.done) || (s.ieErr && s.err != 0)

/-- The read value of STATUS: `zext_32({err, sbox_ready, key_valid, done, BUSY})` (R25). -/
def State.statusWord (s : State) : Word :=
  (s.err.setWidth 32 <<< 4) ||| bitAt 3 s.sboxReady ||| bitAt 2 s.keyValid ||| bitAt 1 s.done |||
    bitAt 0 s.busy

/-- The read value of CFG: `zext_32({ie_err, ie_done})` (R26). -/
def State.cfgWord (s : State) : Word := bitAt 1 s.ieErr ||| bitAt 0 s.ieDone

/-- The read value of ID, "AES1" (R27). -/
def identWord : Word := 0x41455331

/-- The read value of SBOXQ: `{ginv(x), IS(x), S(x), x}` once the tables are ready, and
`zext_32(x)` before (R29, 40_gf_sbox.md R132). -/
def State.sboxqWord (s : State) : Word :=
  if s.sboxReady then packBytes (ginv s.sqX) (invSbox s.sqX) (sbox s.sqX) s.sqX
  else s.sqX.setWidth 32

/-- The read value of GFMUL: `{0x00, gmul(a, b), b, a}` (R30, 40_gf_sbox.md R134). -/
def State.gfmulWord (s : State) : Word := packBytes 0 (gmul s.gfA s.gfB) s.gfB s.gfA

/-- `INDEXED = {0x7, 0xB, 0xC}`: the commands that use IDX (30_encoding.md R96). -/
def isIndexed (cmd : Nibble) : Bool := cmd == 0x7 || cmd == 0xB || cmd == 0xC

/-- `KEYED = {0x2, 0x3, 0x7, 0xB, 0xC}`: the commands that read `rk` (30_encoding.md R96). -/
def isKeyed (cmd : Nibble) : Bool :=
  cmd == 0x2 || cmd == 0x3 || cmd == 0x7 || cmd == 0xB || cmd == 0xC

/-- The reserved CMD values 0xD, 0xE, 0xF (30_encoding.md R94). -/
def isReserved (cmd : Nibble) : Bool := cmd == 0xD || cmd == 0xE || cmd == 0xF

end Sys2Proof.Machine
end

