-- ==== Sys2Proof/Machine/Ops.lean ====
section
/-! DEFINITION. The named operations over the registers that every command and every bus access is made
of: one update per register, raising an error, accepting and completing a command, and the two bus
operations but for the CTRL write. -/

namespace Sys2Proof.Machine

/-- `raise Error(c)`: `err <- c` and nothing else (60_exceptions.md R261). This is all there is of
taking an exception: the hardware has no traps, saves nothing and transfers control nowhere
(R260, R269), so there is no return either (R270). -/
def State.raiseError (c : BitVec 3) (s : State) : State := { s with err := c }

/-- STATUS bit 1 written as 1: `done <- 0` (10_state.md R25). -/
def State.clearDone (s : State) : State := { s with done := false }

/-- STATUS bit 8 written as 1: `err <- 0` (10_state.md R25). -/
def State.clearErr (s : State) : State := { s with err := 0 }

/-- A CFG write: `ie_done <- v[0]; ie_err <- v[1]` (20_memory.md R67). -/
def State.setCfg (v : Word) (s : State) : State :=
  { s with ieDone := v.getLsbD 0, ieErr := v.getLsbD 1 }

/-- An SBOXQ write: `sq_x <- v[7:0]` (20_memory.md R67). -/
def State.setSboxq (v : Word) (s : State) : State := { s with sqX := v.extractLsb' 0 8 }

/-- A GFMUL write: `gf_a <- v[7:0]; gf_b <- v[15:8]` (20_memory.md R67). -/
def State.setGfmul (v : Word) (s : State) : State :=
  { s with gfA := v.extractLsb' 0 8, gfB := v.extractLsb' 8 8 }

/-- Set bytes 4k..4k+3 of KEY from a word (20_memory.md R62, R67). -/
def State.setKeyWord (k : Fin 4) (v : Word) (s : State) : State :=
  { s with key := s.key.setWord k v }

/-- Set bytes 4k..4k+3 of STATE from a word (20_memory.md R62, R67). -/
def State.setStateWord (k : Fin 4) (v : Word) (s : State) : State :=
  { s with state := s.state.setWord k v }

/-- `state <- b`: what every command but KEY_EXPAND and NOP does (10_state.md R39). -/
def State.putState (b : Block) (s : State) : State := { s with state := b }

/-- `rk <- w; key_valid <- 1`: all 176 bytes at once (41_key_schedule.md R156). -/
def State.putSchedule (w : Schedule) (s : State) : State := { s with rk := w, keyValid := true }

/-- A command that passed every check: `inflight <- (cmd, idx); done <- 0` (30_encoding.md R98). -/
def State.launch (cmd idx : Nibble) (s : State) : State :=
  { s with inflight := some ⟨cmd, idx⟩, done := false }

/-- The end of CMD_DONE: `inflight <- none; done <- 1` (30_encoding.md R101). The phase goes back to
`presented` (log entry 4). -/
def State.finish (s : State) : State :=
  { s with inflight := none, done := true, phase := .presented }

/-- GEN_DONE: the tables are constants, so all it does is `sbox_ready <- 1` (40_gf_sbox.md R131,
10_state.md R36). -/
def State.genDone (s : State) : State := { s with sboxReady := true }

/-- The value a bus read returned to the host (log entry 3). -/
def State.latch (v : Word) (s : State) : State := { s with rdata := v }

/-- Which atomic step of a command `exec` is to take (log entry 4). -/
def State.withPhase (p : Phase) (s : State) : State := { s with phase := p }

/-- The steps still to be taken (log entry 1). -/
def State.withEvents (es : List Event) (s : State) : State := { s with events := es }

/-- The Environment pulls `rst_n` low (log entry 5). -/
def State.holdReset (s : State) : State := { s with rstN := false }

/-- RESET: every element of the hardware takes its reset value and whatever is in flight is
abandoned (70_reset_and_hazards.md R290). What the host has read and what the agents are still to
do are not the hardware's and stay (log entries 1 and 3). -/
def State.resetHardware (s : State) : State :=
  { State.reset with rdata := s.rdata, events := s.events }

/-- `Accept`: the checks in their order, then the launch (30_encoding.md R98, R100). -/
def accept (cmd idx : Nibble) (s : State) : State :=
  if cmd = 0x0 then s
  else if s.busy then s.raiseError errBusy
  else if isReserved cmd then s.raiseError errIllegalCmd
  else if isIndexed cmd && decide (idx.toNat > 10) then s.raiseError errBadIndex
  else if isKeyed cmd && !s.keyValid then s.raiseError errNoKey
  else s.launch cmd idx

/-- A command's life: presented, it goes through `Accept` (30_encoding.md R98); completing, it has
its effect and the command ends (R101). -/
def runCommand (cmd idx : Nibble) (effect : State → State) (s : State) :
    Host.Outcome State Fault Refusal :=
  match s.phase with
  | .presented => .next (accept cmd idx s)
  | .completing => .next (effect s).finish

/-- The life of an indexed command. Its function is "never applied to any other index" than 0..10
(30_encoding.md R99); acceptance keeps such a pair out of `inflight` (log entry 6). -/
def runIndexed (cmd idx : Nibble) (effect : RoundIndex → State → State) (s : State) :
    Host.Outcome State Fault Refusal :=
  match s.phase with
  | .presented => .next (accept cmd idx s)
  | .completing =>
    match roundIndex idx with
    | some i => .next (effect i s).finish
    | none => .fault .notAcceptable

/-- `BusRead(off)`: a value, and no change of state (20_memory.md R66). -/
def readRegister (r : Reg) (s : State) : Word :=
  match r with
  | .ctrl => 0
  | .status => s.statusWord
  | .cfg => s.cfgWord
  | .ident => identWord
  | .sboxq => s.sboxqWord
  | .gfmul => s.gfmulWord
  | .key k => s.key.word k
  | .state k => if s.busy then 0 else s.state.word k
  | .rk i k => if s.busy then 0 else s.rk[i].word k
  | .reserved => 0

/-- `BusRead(off)` (20_memory.md R66). -/
def busRead (off : Offset) (s : State) : Word := readRegister (Reg.ofOffset off) s

/-- A STATUS write (20_memory.md R67): bit 1 clears `done`, bit 8 clears `err`, nothing else. -/
def State.writeStatus (v : Word) (s : State) : State :=
  let s := if v.getLsbD 1 then s.clearDone else s
  if v.getLsbD 8 then s.clearErr else s

/-- `BusWrite` to a register other than CTRL (20_memory.md R67). A write to KEY or STATE while busy
is refused with WR_BUSY. ID, RK and the reserved offsets ignore writes. -/
def writeRegister (r : Reg) (v : Word) (s : State) : State :=
  match r with
  | .ctrl => s
  | .status => s.writeStatus v
  | .cfg => s.setCfg v
  | .ident => s
  | .sboxq => s.setSboxq v
  | .gfmul => s.setGfmul v
  | .key k => if s.busy then s.raiseError errWrBusy else s.setKeyWord k v
  | .state k => if s.busy then s.raiseError errWrBusy else s.setStateWord k v
  | .rk _ _ => s
  | .reserved => s

end Sys2Proof.Machine
end

