-- ==== Sys2Proof/Machine/RoundTransform.lean ====
section
/-! DEFINITION. The forward round transform and its five commands (42_round_transform.md). -/

namespace Sys2Proof.Machine

/-- `SubBytes(s)` (R170). -/
def subBytes (b : Block) : Block := b.map sbox

/-- `ShiftRows(s)[r][c] = s[r][(c + r) mod 4]` (R172), written out column by column. -/
def shiftRows (b : Block) : Block :=
  ⟨⟨b.c0.r0, b.c1.r1, b.c2.r2, b.c3.r3⟩,
   ⟨b.c1.r0, b.c2.r1, b.c3.r2, b.c0.r3⟩,
   ⟨b.c2.r0, b.c3.r1, b.c0.r2, b.c1.r3⟩,
   ⟨b.c3.r0, b.c0.r1, b.c1.r2, b.c2.r3⟩⟩

/-- One column of MixColumns: the circulant with first row (2, 3, 1, 1) (R174). -/
def mixColumn (t : Column) : Column where
  r0 := gmul 2 t.r0 ^^^ gmul 3 t.r1 ^^^ t.r2 ^^^ t.r3
  r1 := t.r0 ^^^ gmul 2 t.r1 ^^^ gmul 3 t.r2 ^^^ t.r3
  r2 := t.r0 ^^^ t.r1 ^^^ gmul 2 t.r2 ^^^ gmul 3 t.r3
  r3 := gmul 3 t.r0 ^^^ t.r1 ^^^ t.r2 ^^^ gmul 2 t.r3

/-- `MixColumns(s)`: every column on its own (R174). -/
def mixColumns (b : Block) : Block := b.mapCols mixColumn

/-- `AddRoundKey(s, k)` (R176). -/
def addRoundKey (b k : Block) : Block := b.xor k

/-- `EncRound(s, rk, i)`, for i in 0..10 (R178). -/
def encRound (b : Block) (rk : Schedule) (i : RoundIndex) : Block :=
  if i = 0 then addRoundKey b rk[i]
  else if i = 10 then addRoundKey (shiftRows (subBytes b)) rk[i]
  else addRoundKey (mixColumns (shiftRows (subBytes b))) rk[i]

/-- SUB_BYTES (R171). -/
def execSubBytes (idx : Nibble) (s : State) : Host.Outcome State Fault Refusal :=
  runCommand 0x4 idx (fun s => s.putState (subBytes s.state)) s

/-- SHIFT_ROWS (R173). -/
def execShiftRows (idx : Nibble) (s : State) : Host.Outcome State Fault Refusal :=
  runCommand 0x5 idx (fun s => s.putState (shiftRows s.state)) s

/-- MIX_COLUMNS (R175). -/
def execMixColumns (idx : Nibble) (s : State) : Host.Outcome State Fault Refusal :=
  runCommand 0x6 idx (fun s => s.putState (mixColumns s.state)) s

/-- ADD_ROUND_KEY (R177). -/
def execAddRoundKey (idx : Nibble) (s : State) : Host.Outcome State Fault Refusal :=
  runIndexed 0x7 idx (fun i s => s.putState (addRoundKey s.state s.rk[i])) s

/-- ENC_ROUND (R179). -/
def execEncRound (idx : Nibble) (s : State) : Host.Outcome State Fault Refusal :=
  runIndexed 0xB idx (fun i s => s.putState (encRound s.state s.rk i)) s

end Sys2Proof.Machine
end

