-- ==== Sys2Proof/Machine/RoundInverse.lean ====
section
/-! DEFINITION. The inverse round and its four commands (43_round_inverse.md). -/

namespace Sys2Proof.Machine

/-- `InvSubBytes(s)` (R200). -/
def invSubBytes (b : Block) : Block := b.map invSbox

/-- `InvShiftRows(s)[r][c] = s[r][(c - r) mod 4]` (R202), written out column by column. -/
def invShiftRows (b : Block) : Block :=
  ⟨⟨b.c0.r0, b.c3.r1, b.c2.r2, b.c1.r3⟩,
   ⟨b.c1.r0, b.c0.r1, b.c3.r2, b.c2.r3⟩,
   ⟨b.c2.r0, b.c1.r1, b.c0.r2, b.c3.r3⟩,
   ⟨b.c3.r0, b.c2.r1, b.c1.r2, b.c0.r3⟩⟩

/-- One column of InvMixColumns: the circulant with first row (14, 11, 13, 9) (R204). -/
def invMixColumn (t : Column) : Column where
  r0 := gmul 14 t.r0 ^^^ gmul 11 t.r1 ^^^ gmul 13 t.r2 ^^^ gmul 9 t.r3
  r1 := gmul 9 t.r0 ^^^ gmul 14 t.r1 ^^^ gmul 11 t.r2 ^^^ gmul 13 t.r3
  r2 := gmul 13 t.r0 ^^^ gmul 9 t.r1 ^^^ gmul 14 t.r2 ^^^ gmul 11 t.r3
  r3 := gmul 11 t.r0 ^^^ gmul 13 t.r1 ^^^ gmul 9 t.r2 ^^^ gmul 14 t.r3

/-- `InvMixColumns(s)`: every column on its own (R204). -/
def invMixColumns (b : Block) : Block := b.mapCols invMixColumn

/-- `DecRound(s, rk, i)`, for i in 0..10 (R206). -/
def decRound (b : Block) (rk : Schedule) (i : RoundIndex) : Block :=
  if i = 10 then addRoundKey b rk[i]
  else if i = 0 then addRoundKey (invSubBytes (invShiftRows b)) rk[i]
  else invMixColumns (addRoundKey (invSubBytes (invShiftRows b)) rk[i])

/-- INV_SUB_BYTES (R201). -/
def execInvSubBytes (idx : Nibble) (s : State) : Host.Outcome State Fault Refusal :=
  runCommand 0x8 idx (fun s => s.putState (invSubBytes s.state)) s

/-- INV_SHIFT_ROWS (R203). -/
def execInvShiftRows (idx : Nibble) (s : State) : Host.Outcome State Fault Refusal :=
  runCommand 0x9 idx (fun s => s.putState (invShiftRows s.state)) s

/-- INV_MIX_COLUMNS (R205). -/
def execInvMixColumns (idx : Nibble) (s : State) : Host.Outcome State Fault Refusal :=
  runCommand 0xA idx (fun s => s.putState (invMixColumns s.state)) s

/-- DEC_ROUND (R207). -/
def execDecRound (idx : Nibble) (s : State) : Host.Outcome State Fault Refusal :=
  runIndexed 0xC idx (fun i s => s.putState (decRound s.state s.rk i)) s

end Sys2Proof.Machine
end

