-- ==== Sys2Proof/Machine/BlockCipher.lean ====
section
/-! DEFINITION. The block cipher pipelines and the commands NOP, ENCRYPT and DECRYPT
(44_block_cipher.md). -/

namespace Sys2Proof.Machine

/-- `Cipher(s, rk)`: the encrypt-block pipeline (R231). -/
def cipher (b : Block) (rk : Schedule) : Block :=
  let b := addRoundKey b rk[0]
  let b := [1, 2, 3, 4, 5, 6, 7, 8, 9].foldl
    (fun (b : Block) (i : RoundIndex) =>
      addRoundKey (mixColumns (shiftRows (subBytes b))) rk[i]) b
  addRoundKey (shiftRows (subBytes b)) rk[10]

/-- `InvCipher(s, rk)`: the decrypt-block pipeline (R233). -/
def invCipher (b : Block) (rk : Schedule) : Block :=
  let b := addRoundKey b rk[10]
  let b := [9, 8, 7, 6, 5, 4, 3, 2, 1].foldl
    (fun (b : Block) (i : RoundIndex) =>
      invMixColumns (addRoundKey (invSubBytes (invShiftRows b)) rk[i])) b
  addRoundKey (invSubBytes (invShiftRows b)) rk[0]

/-- NOP (R230): nothing, in either phase; it is never accepted and never refused. -/
def execNop (s : State) : Host.Outcome State Fault Refusal := .next s

/-- ENCRYPT (R232): `state <- Cipher(state, rk)`. -/
def execEncrypt (idx : Nibble) (s : State) : Host.Outcome State Fault Refusal :=
  runCommand 0x2 idx (fun s => s.putState (cipher s.state s.rk)) s

/-- DECRYPT (R234): `state <- InvCipher(state, rk)`. -/
def execDecrypt (idx : Nibble) (s : State) : Host.Outcome State Fault Refusal :=
  runCommand 0x3 idx (fun s => s.putState (invCipher s.state s.rk)) s

end Sys2Proof.Machine
end

