-- ==== Sys2Proof/Machine/KeySchedule.lean ====
section
/-! DEFINITION. The key schedule and its command KEY_EXPAND (41_key_schedule.md). -/

namespace Sys2Proof.Machine

/-- `RotWord(t0, t1, t2, t3) = (t1, t2, t3, t0)` (R152). -/
def rotWord (t : Column) : Column := ⟨t.r1, t.r2, t.r3, t.r0⟩

/-- `SubWord`: each byte through the forward S-box (R153). -/
def subWord (t : Column) : Column := t.map sbox

/-- The round constants `RCON[0..9]` (R154); no other index is ever requested. -/
def rcon (j : Nat) : Byte :=
  [0x01, 0x02, 0x04, 0x08, 0x10, 0x20, 0x40, 0x80, 0x1B, 0x36].getD j 0

/-- The transformed last column of a round key: rotated, substituted, and its first byte XORed with
a round constant (R155). -/
def scheduleCore (c : Byte) (t : Column) : Column :=
  let u := subWord (rotWord t)
  { u with r0 := u.r0 ^^^ c }

/-- Round key i from round key i-1 and `RCON[i-1]` (R155). -/
def nextRoundKey (c : Byte) (p : Block) : Block :=
  let c0 := p.c0.xor (scheduleCore c p.c3)
  let c1 := p.c1.xor c0
  let c2 := p.c2.xor c1
  let c3 := p.c3.xor c2
  ⟨c0, c1, c2, c3⟩

/-- Round key i of a key: round key 0 is the key itself (R151). -/
def roundKey (key : Block) : Nat → Block
  | 0 => key
  | j + 1 => nextRoundKey (rcon j) (roundKey key j)

/-- `KeyExpansion(key)`: the eleven round keys (R155). -/
def keyExpansion (key : Block) : Schedule := Vector.ofFn fun i => roundKey key i.val

/-- KEY_EXPAND (R150): `rk <- KeyExpansion(key); key_valid <- 1`. -/
def execKeyExpand (idx : Nibble) (s : State) : Host.Outcome State Fault Refusal :=
  runCommand 0x1 idx (fun s => s.putSchedule (keyExpansion s.key)) s

end Sys2Proof.Machine
end

