-- ==== Sys2Proof/Machine/Dispatch.lean ====
section
/-! DEFINITION. One arm per command: what the step that `phase` names does with it, its acceptance
(30_encoding.md R98) or its completion (R101). -/

namespace Sys2Proof.Machine

def exec (i : Instr) (s : State) : Host.Outcome State Fault Refusal :=
  match i with
  | .nop => Sys2Proof.Machine.execNop s
  | .keyExpand idx => Sys2Proof.Machine.execKeyExpand idx s
  | .encrypt idx => Sys2Proof.Machine.execEncrypt idx s
  | .decrypt idx => Sys2Proof.Machine.execDecrypt idx s
  | .subBytes idx => Sys2Proof.Machine.execSubBytes idx s
  | .shiftRows idx => Sys2Proof.Machine.execShiftRows idx s
  | .mixColumns idx => Sys2Proof.Machine.execMixColumns idx s
  | .addRoundKey idx => Sys2Proof.Machine.execAddRoundKey idx s
  | .invSubBytes idx => Sys2Proof.Machine.execInvSubBytes idx s
  | .invShiftRows idx => Sys2Proof.Machine.execInvShiftRows idx s
  | .invMixColumns idx => Sys2Proof.Machine.execInvMixColumns idx s
  | .encRound idx => Sys2Proof.Machine.execEncRound idx s
  | .decRound idx => Sys2Proof.Machine.execDecRound idx s

end Sys2Proof.Machine
end

