-- ==== Sys2Proof/WellFormed.lean ====
section
/-! DEFINITION. Which commands are well formed: an indexed command has a legal round index, 0..10
(30_encoding.md R92). An ill-formed one still has an encoding and is still decoded; the hardware
refuses it at acceptance with BAD_INDEX (R98, R99). -/

namespace Sys2Proof

/-- "The legal values are 0..10" (R92). -/
def legalIndex (idx : Nibble) : Bool := decide (idx.toNat ≤ 10)

/-- The operand check of a command (R92): only the indexed commands have one. -/
def Instr.wellFormed : Instr → Bool
  | .nop => true
  | .keyExpand _ => true
  | .encrypt _ => true
  | .decrypt _ => true
  | .subBytes _ => true
  | .shiftRows _ => true
  | .mixColumns _ => true
  | .addRoundKey idx => legalIndex idx
  | .invSubBytes _ => true
  | .invShiftRows _ => true
  | .invMixColumns _ => true
  | .encRound idx => legalIndex idx
  | .decRound idx => legalIndex idx

end Sys2Proof
end

