-- ==== Sys2Proof/Machine/Agents.lean ====
section
/-! DEFINITION. The atomic steps of the three agents, Host, Core and Environment (00_scope.md R9), and
the step the machine takes next. -/

namespace Sys2Proof.Machine

/-- A CTRL write: the word is decoded and presented (20_memory.md R67, 30_encoding.md R98). A
reserved CMD stands for no command; `Accept` refuses it (R94). -/
def presentWord (v : Word) (s : State) : Host.Outcome State Fault Refusal :=
  match decode v with
  | .ok i => exec i (s.withPhase .presented)
  | .error _ => .next (accept (cmdField v) (idxField v) (s.withPhase .presented))

/-- `BusWrite(off, v)` (20_memory.md R67). -/
def busWrite (off : Offset) (v : Word) (s : State) : Host.Outcome State Fault Refusal :=
  match Reg.ofOffset off with
  | .ctrl => presentWord v s
  | r => .next (writeRegister r v s)

/-- The Host's step. While `rst_n` is held low, writes are ignored and reads return 0
(70_reset_and_hazards.md R290). -/
def hostStep (a : BusAccess) (s : State) : Host.Outcome State Fault Refusal :=
  match a with
  | .read off => .next (s.latch (if s.rstN then busRead off s else 0))
  | .write off v => if s.rstN then busWrite off v s else .next s

/-- CMD_DONE: the pair in flight is decoded and its command completes (30_encoding.md R101). The
pairs that never reach `inflight` fault (log entry 6). -/
def cmdDone (c : InFlight) (s : State) : Host.Outcome State Fault Refusal :=
  match decodeFields c.cmd c.idx with
  | .ok .nop => .fault .notAcceptable
  | .ok i => exec i (s.withPhase .completing)
  | .error _ => .fault .notAcceptable

/-- The Core's step: GEN_DONE while `sbox_ready = 0` (40_gf_sbox.md R131), else CMD_DONE while a
command is in flight (30_encoding.md R101), else none is enabled and nothing happens (log entry 2).
While `rst_n` is held low the Core is still (log entry 5). -/
def coreStep (s : State) : Host.Outcome State Fault Refusal :=
  if !s.rstN then .next s
  else if !s.sboxReady then .next s.genDone
  else
    match s.inflight with
    | none => .next s
    | some c => cmdDone c s

/-- One step of one agent (00_scope.md R9). -/
def takeEvent (e : Event) (s : State) : Host.Outcome State Fault Refusal :=
  match e with
  | .host a => hostStep a s
  | .core => coreStep s
  | .resetLow => .next s.holdReset
  | .reset => .next s.resetHardware

/-- The next step of the machine: the first of the events still to be taken; with none left, the
Core's enabled step (log entries 1 and 2). -/
def takeStep (s : State) : Host.Outcome State Fault Refusal :=
  match s.events with
  | [] => coreStep s
  | e :: rest => takeEvent e (s.withEvents rest)

/-- Whether a command word can be in flight: it is a command other than NOP with a legal index
(30_encoding.md R98, R101). -/
def canFly (v : Word) : Bool :=
  match decode v with
  | .ok .nop => false
  | .ok i => i.wellFormed
  | .error _ => false

/-- The machine made ready for the command word `v` to be accepted: the S-box is ready, nothing is
in flight, and for a keyed command a schedule has been expanded from KEY, since acceptance needs
all three (30_encoding.md R98). -/
def readyFor (v : Word) (s : State) : State :=
  let s := { s with rstN := true, sboxReady := true, inflight := none, phase := .presented }
  if isKeyed (cmdField v) && !s.keyValid then s.putSchedule (keyExpansion s.key) else s

/-- The machine just after the command word `v` was accepted, with the Core's step next. -/
def putInFlight (v : Word) (s : State) : State :=
  (accept (cmdField v) (idxField v) (readyFor v s)).withEvents (.core :: s.events)

/-- Put a command word where the very next step runs it (log entry 7). The nearest thing to a
program counter is `inflight` (10_state.md R20): a word that can be in flight is put there, and the
next step is its CMD_DONE. NOP, and a word that acceptance turns away whatever the state, never are
in flight; for them the next step is the host's CTRL write. -/
def placeWord (v : Word) (s : State) : State :=
  if canFly v then putInFlight v s
  else { s with rstN := true, events := .host (.write 0x00 v) :: s.events }

end Sys2Proof.Machine
end

