-- ==== Sys2Proof/Machine/Step.lean ====
section
/-! DEFINITION. One step of the machine, and the placing of a command word where the next step runs
it. -/

namespace Sys2Proof.Machine

/-- One atomic step of the agent whose step is next (00_scope.md R9). -/
def step (s : State) : Host.Outcome State Fault Refusal := takeStep s

/-- `s` with the command word whose bits are `w` (those above `nbits` 0) where the next step runs
it (log entry 7). -/
def State.withFetchWord (s : State) (nbits w : Nat) : State :=
  placeWord (BitVec.ofNat 32 (w % 2 ^ nbits)) s

end Sys2Proof.Machine
end

