-- ==== Sys2Proof/Machine/HostScript.lean ====
section
/-! DEFINITION. The host-script notation: register names, and the pseudo-instructions with their
expansions into bus accesses (30_encoding.md R102 to R104). -/

namespace Sys2Proof.Machine

/-- `off(reg)`: the word offset of a named register (20_memory.md R61); `none` for `reserved`,
which names no single offset. -/
def Reg.offset : Reg → Option Offset
  | .ctrl => some 0x00
  | .status => some 0x01
  | .cfg => some 0x02
  | .ident => some 0x03
  | .sboxq => some 0x04
  | .gfmul => some 0x05
  | .key k => some (BitVec.ofNat 6 (0x08 + k.val))
  | .state k => some (BitVec.ofNat 6 (0x0C + k.val))
  | .rk i k => some (BitVec.ofNat 6 (0x10 + 4 * i.val + k.val))
  | .reserved => none

/-- One line of a host script (R102, R103). -/
inductive ScriptLine where
  /-- `WR <offset>, <imm32>`. -/
  | wr (off : Offset) (v : Word)
  /-- `RD <offset>`. -/
  | rd (off : Offset)
  /-- `CMD <MNEMONIC>` or `CMD <MNEMONIC>, <n>`. -/
  | cmd (i : Instr)
  /-- `WAIT`, as it runs when the first `polls` reads of STATUS still return BUSY = 1 and the next
  one returns BUSY = 0: how many there are is the interleaving's doing (00_scope.md R10).
  DESIGN CHOICE, safe: log entry 10. -/
  | wait (polls : Nat)
  /-- `WRBLK KEY, <32 hex digits>`. -/
  | wrblkKey (b : Block)
  /-- `WRBLK STATE, <32 hex digits>`. -/
  | wrblkState (b : Block)
  /-- `RDBLK STATE`. -/
  | rdblkState
  /-- `RDBLK RK <i>`. -/
  | rdblkRk (i : RoundIndex)
  /-- `CLRERR`. -/
  | clrerr
  /-- `CLRDONE`. -/
  | clrdone
deriving DecidableEq, Repr

/-- The four writes of a `WRBLK`, word 0 first, from offset `base` on (R103). -/
def writeBlock (base : Offset) (b : Block) : List BusAccess :=
  [.write base (b.word 0), .write (base + 1) (b.word 1), .write (base + 2) (b.word 2),
   .write (base + 3) (b.word 3)]

/-- The four reads of an `RDBLK`, word 0 first, from offset `base` on (R103). -/
def readBlock (base : Offset) : List BusAccess :=
  [.read base, .read (base + 1), .read (base + 2), .read (base + 3)]

/-- The bus accesses a script line stands for (R102, R103). -/
def ScriptLine.accesses : ScriptLine → List BusAccess
  | .wr off v => [.write off v]
  | .rd off => [.read off]
  | .cmd i => [.write 0x00 (encode i)]
  | .wait polls => List.replicate (polls + 1) (.read 0x01)
  | .wrblkKey b => writeBlock 0x08 b
  | .wrblkState b => writeBlock 0x0C b
  | .rdblkState => readBlock 0x0C
  | .rdblkRk i => readBlock (BitVec.ofNat 6 (0x10 + 4 * i.val))
  | .clrerr => [.write 0x01 0x00000100]
  | .clrdone => [.write 0x01 0x00000002]

/-- A script line as Host steps, in program order (20_memory.md R71). -/
def ScriptLine.events (l : ScriptLine) : List Event := l.accesses.map .host

end Sys2Proof.Machine
end

