-- ==== Sys2Proof/Safety.lean ====
section
/-! DEFINITION. What counts as a safe run, in the terms the claims use: the kinds of step there are, the
invariant of the machine, and the outcomes that go on. -/

namespace Sys2Proof.Machine

/-- What kind of atomic step a step is (00_scope.md R9). -/
inductive StepKind where
  /-- The Host reads. -/
  | hostRead (off : Offset)
  /-- The Host writes, and `rst_n` is not held low. -/
  | hostWrite (off : Offset) (v : Word)
  /-- The Core ends S-box generation. -/
  | genDone
  /-- The Core completes the command in flight. -/
  | cmdDone (c : InFlight)
  /-- The Environment pulls `rst_n` low. -/
  | resetLow
  /-- The Environment takes RESET. -/
  | reset
  /-- No step is enabled for the agent whose turn it is, or the Host writes while `rst_n` is low. -/
  | nothing
deriving DecidableEq, Repr

/-- The kind of the Core's next step: GEN_DONE is enabled while `sbox_ready = 0`, CMD_DONE while a
command is in flight (40_gf_sbox.md R131, 30_encoding.md R101). -/
def coreKind (s : State) : StepKind :=
  if !s.rstN then .nothing
  else if !s.sboxReady then .genDone
  else
    match s.inflight with
    | none => .nothing
    | some c => .cmdDone c

/-- The kind of the machine's next step. -/
def stepKind (s : State) : StepKind :=
  match s.events with
  | [] => coreKind s
  | .host (.read off) :: _ => .hostRead off
  | .host (.write off v) :: _ => if s.rstN then .hostWrite off v else .nothing
  | .core :: _ => coreKind s
  | .resetLow :: _ => .resetLow
  | .reset :: _ => .reset

/-- A pair that acceptance can put in flight: a command other than NOP, an index 0..10 if it is
indexed, and `key_valid` set if it is keyed (30_encoding.md R98, R101). -/
def acceptable (c : InFlight) (keyValid : Bool) : Prop :=
  (1 ≤ c.cmd.toNat ∧ c.cmd.toNat ≤ 0xC) ∧ (isIndexed c.cmd = true → c.idx.toNat ≤ 10) ∧
    (isKeyed c.cmd = true → keyValid = true)

/-- The invariant of the machine: what holds at reset and after every step. -/
structure State.Inv (s : State) : Prop where
  /-- Between steps a command is next presented, not completing (log entry 4). -/
  phasePresented : s.phase = .presented
  /-- The codes 6 and 7 are never produced (60_exceptions.md R262). -/
  errCode : s.err.toNat ≤ 5
  /-- A command in flight was accepted with the S-box ready, and DONE is 0 until it completes
  (30_encoding.md R98, R101). -/
  flightReady : s.inflight ≠ none → s.sboxReady = true ∧ s.done = false
  /-- Only what acceptance lets through is in flight (30_encoding.md R101). -/
  flightAccepted : ∀ c, s.inflight = some c → acceptable c s.keyValid
  /-- Until GEN_DONE nothing but the reset values stands in KEY, STATE, KEY_VALID and DONE, because
  every command and data write is refused (70_reset_and_hazards.md R292). -/
  startUp : s.sboxReady = false →
    s.key = zeroBlock ∧ s.state = zeroBlock ∧ s.keyValid = false ∧ s.done = false
  /-- Before any KEY_EXPAND the schedule holds its reset value (41_key_schedule.md R157). -/
  noKey : s.keyValid = false → s.rk = Vector.replicate 11 zeroBlock
  /-- "key_valid is 1 when rk holds the schedule of some key" (10_state.md R31); the key is round
  key 0 (41_key_schedule.md R151). -/
  schedule : s.keyValid = true → s.rk = keyExpansion s.rk[0]

/-- A step that goes on: the hardware "never halts, never enters a fault state"
(60_exceptions.md R260). -/
def goesOn (s : State) : Prop := ∃ t, step s = .next t

/-- `n` steps of the machine. -/
def runSteps (n : Nat) (s : State) : Host.Outcome State Fault Refusal :=
  Host.Core.run Sys2Proof.core n s

end Sys2Proof.Machine
end

