-- ==== Sys2Proof/Certificates/Slice0/Obligations.lean ====
section
/-! DEFINITION. The statements about the machine that the provers are to settle. -/

section

open Sys2Proof Sys2Proof.Machine

/-! ### Encoding (30_encoding.md) -/

/-- Every command, with every IDX value, is decoded from the word it is encoded as (R91, R93). -/
def Obligations.DecodeEncodeRoundTrip : Prop :=
  ∀ i : Instr, decode (encode i) = .ok i

/-- The word of the command that was read from `v` is `v` with its reserved bits cleared, and for
NOP, whose other bits are all ignored, 0 (R91, R95, R230). -/
def Obligations.EncodeInvertsDecode : Prop :=
  ∀ (v : Word) (i : Instr), decode v = .ok i →
    encode i = if i = .nop then 0 else v &&& 0x00000F0F

/-- R95: two words that agree but for the reserved bits 31:12 and 7:4 are decoded alike and do the
same when written to CTRL, in every state. -/
def Obligations.ReservedBitsChangeNothing : Prop :=
  ∀ v : Word, decode v = decode (v &&& 0x00000F0F) ∧
    ∀ s : State, busWrite 0x00 v s = busWrite 0x00 (v &&& 0x00000F0F) s

/-- R104: the command words in hexadecimal. -/
def Obligations.CommandWordsInHexadecimal : Prop :=
  encode .nop = 0x00000000 ∧ encode (.keyExpand 0) = 0x00000001 ∧
  encode (.encrypt 0) = 0x00000002 ∧ encode (.decrypt 0) = 0x00000003 ∧
  encode (.subBytes 0) = 0x00000004 ∧ encode (.shiftRows 0) = 0x00000005 ∧
  encode (.mixColumns 0) = 0x00000006 ∧ encode (.invSubBytes 0) = 0x00000008 ∧
  encode (.invShiftRows 0) = 0x00000009 ∧ encode (.invMixColumns 0) = 0x0000000A ∧
  encode (.addRoundKey 10) = 0x00000A07 ∧
  ∀ n : Nibble,
    encode (.addRoundKey n) = (n.setWidth 32 <<< 8) ||| 0x07 ∧
    encode (.encRound n) = (n.setWidth 32 <<< 8) ||| 0x0B ∧
    encode (.decRound n) = (n.setWidth 32 <<< 8) ||| 0x0C

/-- Words written out from R91 and R93, and those of 95_test_vectors.md V27, are decoded as the
spec says. -/
def Obligations.SpecCommandWordsDecode : Prop :=
  decode 0x00000000 = .ok .nop ∧ decode 0xFFFFF0F0 = .ok .nop ∧
  decode 0x00000001 = .ok (.keyExpand 0) ∧ decode 0x00000002 = .ok (.encrypt 0) ∧
  decode 0xFFFFFFF2 = .ok (.encrypt 15) ∧ decode 0x00000003 = .ok (.decrypt 0) ∧
  decode 0x00000004 = .ok (.subBytes 0) ∧ decode 0x00000A07 = .ok (.addRoundKey 10) ∧
  decode 0x12345A37 = .ok (.addRoundKey 10) ∧ decode 0x00000B07 = .ok (.addRoundKey 11) ∧
  decode 0x0000050B = .ok (.encRound 5) ∧ decode 0x0000000C = .ok (.decRound 0)

/-- R94, with the order of R98: the reserved CMD values decode to no command; a CTRL write of one
sets ERR to ILLEGAL_CMD, or to BUSY while busy, and changes nothing else. The premise on `phase`
is the invariant's first clause. -/
def Obligations.ReservedCommandsAreRefused : Prop :=
  ∀ (v : Word), (v.extractLsb' 0 4 = 0xD ∨ v.extractLsb' 0 4 = 0xE ∨ v.extractLsb' 0 4 = 0xF) →
    decode v = .error (.reservedCommand (v.extractLsb' 0 4)) ∧
    ∀ (s : State) (rest : List Event), s.rstN = true → s.phase = .presented →
      s.events = .host (.write 0x00 v) :: rest →
      step s = .next { s with events := rest, err := if s.busy then 4 else 1 }

/-! ### A step runs the decoded command -/

/-- A CTRL write runs the command its word decodes to, at the state with that host step taken and
the phase `presented` (20_memory.md R67, 30_encoding.md R100; the phase is the model's choice, log
entry 4). -/
def Obligations.CtrlWriteRunsTheDecodedCommand : Prop :=
  ∀ (s : State) (v : Word) (i : Instr) (rest : List Event),
    s.rstN = true → s.events = .host (.write 0x00 v) :: rest → decode v = .ok i →
    step s = exec i { s with events := rest, phase := .presented }

/-- CMD_DONE runs the command in flight, at the state with that Core step taken and the phase
`completing` (30_encoding.md R101). With no event left the Core takes the step of its own accord
(log entries 1 and 4). -/
def Obligations.CmdDoneRunsTheCommandInFlight : Prop :=
  ∀ (s : State) (c : InFlight) (i : Instr),
    s.rstN = true → s.sboxReady = true → s.inflight = some c →
    decodeFields c.cmd c.idx = .ok i → i ≠ .nop →
    (∀ rest, s.events = .core :: rest →
      step s = exec i { s with events := rest, phase := .completing }) ∧
    (s.events = [] → step s = exec i { s with phase := .completing })

/-- Placing the word of a well-formed command other than NOP makes the very next step complete it,
on the KEY and STATE that were there, and on the schedule that was there if there was one (the
model's choice, log entry 7). -/
def Obligations.PlacedWordRunsItsCommand : Prop :=
  ∀ (s : State) (i : Instr), i ≠ .nop → i.wellFormed = true →
    ∃ t : State, step (s.withFetchWord 32 (encode i).toNat) = exec i t ∧
      t.phase = .completing ∧ t.key = s.key ∧ t.state = s.state ∧ t.events = s.events ∧
      t.inflight = some ⟨i.code, i.index⟩ ∧ (s.keyValid = true → t.rk = s.rk)

/-! ### Acceptance (30_encoding.md R98) -/

/-- R98: what a CTRL write does, check by check, the first that fails deciding. The premise on
`phase` is the invariant's first clause (log entry 4); the write is the first event (log entry 1). -/
def Obligations.CtrlWriteFollowsAcceptance : Prop :=
  ∀ (s : State) (v : Word) (rest : List Event),
    s.rstN = true → s.phase = .presented → s.events = .host (.write 0x00 v) :: rest →
    let cmd : Nibble := v.extractLsb' 0 4
    let idx : Nibble := v.extractLsb' 8 4
    let busy : Prop := s.sboxReady = false ∨ s.inflight ≠ none
    let indexed : Prop := cmd = 0x7 ∨ cmd = 0xB ∨ cmd = 0xC
    let keyed : Prop := cmd = 0x2 ∨ cmd = 0x3 ∨ cmd = 0x7 ∨ cmd = 0xB ∨ cmd = 0xC
    let reserved : Prop := cmd = 0xD ∨ cmd = 0xE ∨ cmd = 0xF
    let t : State := { s with events := rest }
    (cmd = 0x0 → step s = .next t) ∧
    (cmd ≠ 0x0 → busy → step s = .next { t with err := 4 }) ∧
    (cmd ≠ 0x0 → ¬busy → reserved → step s = .next { t with err := 1 }) ∧
    (cmd ≠ 0x0 → ¬busy → ¬reserved → indexed → idx.toNat > 10 →
      step s = .next { t with err := 2 }) ∧
    (cmd ≠ 0x0 → ¬busy → ¬reserved → (indexed → idx.toNat ≤ 10) → keyed → s.keyValid = false →
      step s = .next { t with err := 3 }) ∧
    (cmd ≠ 0x0 → ¬busy → ¬reserved → (indexed → idx.toNat ≤ 10) →
      (keyed → s.keyValid = true) →
      step s = .next { t with inflight := some ⟨cmd, idx⟩, done := false })

/-- What `exec` answers for every presented command but NOP: refused with BUSY, BAD_INDEX or
NO_KEY, or put in flight (R98, R99, R262, R263). -/
def Obligations.PresentedCommandsAreAcceptedOrRefused : Prop :=
  ∀ (i : Instr) (s : State), i ≠ .nop → s.phase = .presented →
    let busy : Prop := s.sboxReady = false ∨ s.inflight ≠ none
    (busy → exec i s = .next { s with err := 4 }) ∧
    (¬busy → i.wellFormed = false → exec i s = .next { s with err := 2 }) ∧
    (¬busy → i.wellFormed = true → isKeyed i.code = true → s.keyValid = false →
      exec i s = .next { s with err := 3 }) ∧
    (¬busy → i.wellFormed = true → (isKeyed i.code = true → s.keyValid = true) →
      exec i s = .next { s with inflight := some ⟨i.code, i.index⟩, done := false })

/-- NOP leaves every state element unchanged, in every state, busy or not (44_block_cipher.md
R230). -/
def Obligations.NopLeavesEverythingUnchanged : Prop :=
  ∀ s : State, exec .nop s = .next s

/-! ### Completion (30_encoding.md R101) -/

/-- The six unkeyed commands on STATE, completing: their function of STATE replaces it, the command
ends, DONE is set, and nothing else changes (R171, R173, R175, R201, R203, R205). -/
def Obligations.StateCommandsComplete : Prop :=
  ∀ (x : Nibble) (s : State), s.phase = .completing →
    let t (b : Block) : State :=
      { s with state := b, inflight := none, done := true, phase := .presented }
    exec (.subBytes x) s = .next (t (subBytes s.state)) ∧
    exec (.shiftRows x) s = .next (t (shiftRows s.state)) ∧
    exec (.mixColumns x) s = .next (t (mixColumns s.state)) ∧
    exec (.invSubBytes x) s = .next (t (invSubBytes s.state)) ∧
    exec (.invShiftRows x) s = .next (t (invShiftRows s.state)) ∧
    exec (.invMixColumns x) s = .next (t (invMixColumns s.state))

/-- ENCRYPT and DECRYPT, completing (R232, R234). -/
def Obligations.BlockCommandsComplete : Prop :=
  ∀ (x : Nibble) (s : State), s.phase = .completing →
    let t (b : Block) : State :=
      { s with state := b, inflight := none, done := true, phase := .presented }
    exec (.encrypt x) s = .next (t (cipher s.state s.rk)) ∧
    exec (.decrypt x) s = .next (t (invCipher s.state s.rk))

/-- The indexed commands, completing at each of their legal indices 0..10 (R177, R179, R207). -/
def Obligations.IndexedCommandsComplete : Prop :=
  ∀ (i : RoundIndex) (s : State), s.phase = .completing →
    let n : Nibble := BitVec.ofNat 4 i.val
    let t (b : Block) : State :=
      { s with state := b, inflight := none, done := true, phase := .presented }
    exec (.addRoundKey n) s = .next (t (addRoundKey s.state s.rk[i])) ∧
    exec (.encRound n) s = .next (t (encRound s.state s.rk i)) ∧
    exec (.decRound n) s = .next (t (decRound s.state s.rk i))

/-- KEY_EXPAND, completing: the whole schedule and KEY_VALID are written at once, and neither KEY nor
STATE (41_key_schedule.md R150, R156). -/
def Obligations.KeyExpandCompletes : Prop :=
  ∀ (x : Nibble) (s : State), s.phase = .completing →
    exec (.keyExpand x) s = .next { s with
      rk := keyExpansion s.key, keyValid := true
      inflight := none, done := true, phase := .presented }

/-- An indexed command with an index above 10 is never applied: completing it stops (R99; the stop
is the model's choice, log entry 6). -/
def Obligations.IndexAboveTenStops : Prop :=
  ∀ (x : Nibble) (s : State), x.toNat > 10 → s.phase = .completing →
    exec (.addRoundKey x) s = .fault .notAcceptable ∧
    exec (.encRound x) s = .fault .notAcceptable ∧
    exec (.decRound x) s = .fault .notAcceptable

/-- What every command leaves unchanged, presented or completing: KEY, the query ports, CFG,
`sbox_ready`, the model's own fields but `phase`; presented, also STATE and the schedule;
completing, also ERR, and STATE (KEY_EXPAND) or the schedule (every other command). So every
register but STATUS, STATE and RK reads as before (10_state.md R39). -/
def Obligations.ExecFrame : Prop :=
  ∀ (i : Instr) (s t : State), exec i s = .next t →
    t.key = s.key ∧ t.sboxReady = s.sboxReady ∧ t.ieDone = s.ieDone ∧ t.ieErr = s.ieErr ∧
    t.sqX = s.sqX ∧ t.gfA = s.gfA ∧ t.gfB = s.gfB ∧ t.rstN = s.rstN ∧ t.rdata = s.rdata ∧
    t.events = s.events ∧
    (s.phase = .presented → t.state = s.state ∧ t.rk = s.rk ∧ t.keyValid = s.keyValid) ∧
    (s.phase = .completing → t.err = s.err ∧
      (i.code = 0x1 → t.state = s.state) ∧
      (i.code ≠ 0x1 → t.rk = s.rk ∧ t.keyValid = s.keyValid)) ∧
    (∀ off : Offset, off ≠ 0x01 → (off.toNat < 0x0C ∨ off.toNat ≥ 0x3C) →
      busRead off t = busRead off s)

/-! ### GF(2^8) and the S-box (40_gf_sbox.md) -/

/-- R121: the laws of gmul. -/
def Obligations.GmulLaws : Prop :=
  (∀ a : Byte, gmul a 0 = 0) ∧ (∀ a : Byte, gmul a 1 = a) ∧
  (∀ a b : Byte, gmul a b = gmul b a) ∧
  (∀ a b c : Byte, gmul (gmul a b) c = gmul a (gmul b c)) ∧
  (∀ a b c : Byte, gmul a (b ^^^ c) = gmul a b ^^^ gmul a c) ∧
  (∀ a : Byte, a ≠ 0 → ∃ b, gmul a b = 1 ∧ ∀ c, gmul a c = 1 → c = b)

/-- R122: xtime is a shift and a conditional reduction, with the rule's examples. -/
def Obligations.XtimeIsDoubling : Prop :=
  (∀ a : Byte, xtime a = gmul a 0x02 ∧
    xtime a = (a <<< 1) ^^^ (if a.getLsbD 7 then 0x1B else 0x00)) ∧
  xtime 0x57 = 0xAE ∧ xtime 0xAE = 0x47 ∧ xtime 0x80 = 0x1B

/-- R123: the unique inverse of a non-zero byte, and 0 for 0; and S is affine after it. -/
def Obligations.GinvIsTheUniqueInverse : Prop :=
  (∀ a b : Byte, a ≠ 0 → (gmul a b = 0x01 ↔ b = ginv a)) ∧ ginv 0x00 = 0x00 ∧
  ∀ x : Byte, sbox x = affine (ginv x)

/-- R124: the affine transform with its four rotations, and the rule's examples. -/
def Obligations.AffineTransform : Prop :=
  (∀ q : Byte, affine q = q ^^^ q.rotateLeft 1 ^^^ q.rotateLeft 2 ^^^ q.rotateLeft 3 ^^^
    q.rotateLeft 4 ^^^ 0x63) ∧
  affine 0x00 = 0x63 ∧ affine 0x01 = 0x7C ∧ affine 0x8D = 0x77 ∧ affine 0xCA = 0xED

/-- R126: the tables are what the generator's walk fills in: it starts and ends at `p = q = 1`,
multiplies by 0x03 and 0xF6, writes every non-zero index exactly once, and each write is the
table's entry; the zero entries are written last. -/
def Obligations.GeneratorWalkFillsTheTables : Prop :=
  walk 0 = (0x01, 0x01) ∧ walk 255 = (0x01, 0x01) ∧
  (∀ k : Nat, walk (k + 1) = (gmul (walk k).1 0x03, gmul (walk k).2 0xF6)) ∧
  (∀ k : Nat, 1 ≤ k → k ≤ 255 →
    ginv (walk k).1 = (walk k).2 ∧ sbox (walk k).1 = affine (walk k).2 ∧
    invSbox (affine (walk k).2) = (walk k).1) ∧
  (∀ x : Byte, x ≠ 0 → ∃ k, (1 ≤ k ∧ k ≤ 255 ∧ (walk k).1 = x) ∧
    ∀ j, 1 ≤ j → j ≤ 255 → (walk j).1 = x → j = k) ∧
  ginv 0x00 = 0x00 ∧ sbox 0x00 = 0x63 ∧ invSbox 0x63 = 0x00 ∧
  walk 1 = (0x03, 0xF6) ∧ sbox 0x03 = 0x7B ∧ walk 2 = (0x05, 0x52) ∧ sbox 0x05 = 0x6B ∧
  walk 3 = (0x0F, 0xC7) ∧ sbox 0x0F = 0x76 ∧ sbox 0x01 = 0x7C

/-- R130: S is a permutation, IS its inverse on both sides, with no fixed point and no complement
fixed point. -/
def Obligations.SboxIsAPermutationWithoutFixedPoints : Prop :=
  (∀ x y : Byte, sbox x = sbox y → x = y) ∧ (∀ y : Byte, ∃ x, sbox x = y) ∧
  (∀ x : Byte, invSbox (sbox x) = x) ∧ (∀ y : Byte, sbox (invSbox y) = y) ∧
  (∀ x : Byte, sbox x ≠ x ∧ sbox x ≠ x ^^^ 0xFF)

/-- The two query ports, written and then read over the bus (R132, R134, with their examples):
SBOXQ before and after GEN_DONE, GFMUL at any time. -/
def Obligations.QueryPortsAnswer : Prop :=
  (∀ (s : State) (v : Word), ∃ t, busWrite 0x04 v s = .next t ∧
    (s.sboxReady = false → busRead 0x04 t = v &&& 0xFF) ∧
    (s.sboxReady = true →
      (busRead 0x04 t).extractLsb' 24 8 = ginv (v.extractLsb' 0 8) ∧
      (busRead 0x04 t).extractLsb' 16 8 = invSbox (v.extractLsb' 0 8) ∧
      (busRead 0x04 t).extractLsb' 8 8 = sbox (v.extractLsb' 0 8) ∧
      (busRead 0x04 t).extractLsb' 0 8 = v.extractLsb' 0 8)) ∧
  (∀ (s : State) (v : Word), ∃ t, busWrite 0x05 v s = .next t ∧
    (busRead 0x05 t).extractLsb' 24 8 = 0x00 ∧
    (busRead 0x05 t).extractLsb' 16 8 = gmul (v.extractLsb' 0 8) (v.extractLsb' 8 8) ∧
    (busRead 0x05 t).extractLsb' 0 16 = v.extractLsb' 0 16) ∧
  (∀ s : State, s.sboxReady = true → ∀ t, busWrite 0x04 0x53 s = .next t →
    busRead 0x04 t = 0xCA50ED53) ∧
  (∀ s t : State, busWrite 0x05 0x00008357 s = .next t → busRead 0x05 t = 0x00C18357)

/-! ### The key schedule (41_key_schedule.md) -/

/-- R155, with R151 to R153: round key 0 is the key, and each next one comes from the one before,
column by column. -/
def Obligations.KeyScheduleRecurrence : Prop :=
  ∀ key : Block,
    (keyExpansion key)[0] = key ∧
    (∀ t : Column, rotWord t = ⟨t.r1, t.r2, t.r3, t.r0⟩ ∧
      subWord t = ⟨sbox t.r0, sbox t.r1, sbox t.r2, sbox t.r3⟩) ∧
    ∀ (i : Nat) (h1 : 1 ≤ i) (h10 : i ≤ 10),
      let p : Block := (keyExpansion key)[i - 1]
      let w : Block := (keyExpansion key)[i]
      let t : Column := subWord (rotWord (p.col 3))
      w.col 0 = (p.col 0).xor ⟨t.r0 ^^^ rcon (i - 1), t.r1, t.r2, t.r3⟩ ∧
      w.col 1 = (p.col 1).xor (w.col 0) ∧ w.col 2 = (p.col 2).xor (w.col 1) ∧
      w.col 3 = (p.col 3).xor (w.col 2) ∧
      w.word 0 = p.word 0 ^^^ t.word ^^^ ((rcon (i - 1)).setWidth 32 <<< 24) ∧
      w.word 1 = p.word 1 ^^^ w.word 0 ∧ w.word 2 = p.word 2 ^^^ w.word 1 ∧
      w.word 3 = p.word 3 ^^^ w.word 2

/-- R154: the table of round constants, each the double of the one before. -/
def Obligations.RoundConstants : Prop :=
  (List.range 10).map rcon = [0x01, 0x02, 0x04, 0x08, 0x10, 0x20, 0x40, 0x80, 0x1B, 0x36] ∧
  rcon 0 = 0x01 ∧ ∀ j : Nat, j < 9 → rcon (j + 1) = xtime (rcon j)

/-! ### The round functions (42_round_transform.md, 43_round_inverse.md) -/

/-- R170, R172, R176, R200, R202: the steps that move or replace bytes, byte by byte; rows and
columns are counted modulo 4. -/
def Obligations.RoundStepsByteByByte : Prop :=
  ∀ b k : Block,
    (∀ i : Fin 16, (subBytes b).byte i = sbox (b.byte i)) ∧
    (∀ r c : Fin 4, (shiftRows b).cell r c = b.cell r (c + r)) ∧
    (∀ i : Fin 16, (addRoundKey b k).byte i = b.byte i ^^^ k.byte i) ∧
    (∀ i : Fin 16, (invSubBytes b).byte i = invSbox (b.byte i)) ∧
    (∀ r c : Fin 4, (invShiftRows b).cell r c = b.cell r (c - r)) ∧
    invShiftRows (shiftRows b) = b ∧ shiftRows (invShiftRows b) = b ∧
    (∀ r c : Fin 4, b.cell r c = b.byte ⟨r.val + 4 * c.val, by omega⟩)

/-- R174, R204: the two column transforms, row by row. -/
def Obligations.MixColumnsFormulas : Prop :=
  ∀ (b : Block) (c : Fin 4),
    let c0 := b.cell 0 c
    let c1 := b.cell 1 c
    let c2 := b.cell 2 c
    let c3 := b.cell 3 c
    (mixColumns b).cell 0 c = gmul 2 c0 ^^^ gmul 3 c1 ^^^ c2 ^^^ c3 ∧
    (mixColumns b).cell 1 c = c0 ^^^ gmul 2 c1 ^^^ gmul 3 c2 ^^^ c3 ∧
    (mixColumns b).cell 2 c = c0 ^^^ c1 ^^^ gmul 2 c2 ^^^ gmul 3 c3 ∧
    (mixColumns b).cell 3 c = gmul 3 c0 ^^^ c1 ^^^ c2 ^^^ gmul 2 c3 ∧
    (invMixColumns b).cell 0 c = gmul 14 c0 ^^^ gmul 11 c1 ^^^ gmul 13 c2 ^^^ gmul 9 c3 ∧
    (invMixColumns b).cell 1 c = gmul 9 c0 ^^^ gmul 14 c1 ^^^ gmul 11 c2 ^^^ gmul 13 c3 ∧
    (invMixColumns b).cell 2 c = gmul 13 c0 ^^^ gmul 9 c1 ^^^ gmul 14 c2 ^^^ gmul 11 c3 ∧
    (invMixColumns b).cell 3 c = gmul 11 c0 ^^^ gmul 13 c1 ^^^ gmul 9 c2 ^^^ gmul 14 c3

/-- R178 and R206: the single rounds, index by index. -/
def Obligations.RoundsByIndex : Prop :=
  ∀ (b : Block) (rk : Schedule),
    encRound b rk 0 = addRoundKey b rk[0] ∧
    encRound b rk 10 = addRoundKey (shiftRows (subBytes b)) rk[10] ∧
    decRound b rk 10 = addRoundKey b rk[10] ∧
    decRound b rk 0 = addRoundKey (invSubBytes (invShiftRows b)) rk[0] ∧
    ∀ i : RoundIndex, 1 ≤ i.val → i.val ≤ 9 →
      encRound b rk i = addRoundKey (mixColumns (shiftRows (subBytes b))) rk[i] ∧
      decRound b rk i = invMixColumns (addRoundKey (invSubBytes (invShiftRows b)) rk[i])

/-- R208: the inverse laws of the steps. -/
def Obligations.InverseStepLaws : Prop :=
  ∀ b k : Block,
    invSubBytes (subBytes b) = b ∧ invShiftRows (shiftRows b) = b ∧
    invMixColumns (mixColumns b) = b ∧ mixColumns (invMixColumns b) = b ∧
    addRoundKey (addRoundKey b k) k = b

/-! ### The block cipher (44_block_cipher.md) -/

/-- R236: encryption is ENC_ROUND 0, 1, ..., 10 in order, as functions, and on the machine: a host
that issues the eleven commands, each completing before the next, ends with the same STATE as one
ENCRYPT. The interleaving is written as a list of events (log entry 1). -/
def Obligations.CipherIsElevenEncRounds : Prop :=
  (∀ (b : Block) (rk : Schedule),
    cipher b rk = (List.finRange 11).foldl (fun b i => encRound b rk i) b) ∧
  ∀ s : State, s.rstN = true → s.phase = .presented → s.sboxReady = true → s.inflight = none →
    s.keyValid = true →
    ∃ t u : State,
      runSteps 22 { s with events := (List.finRange 11).flatMap fun i =>
        [.host (.write 0x00 (encode (.encRound (BitVec.ofNat 4 i.val)))), .core] } = .next t ∧
      runSteps 2 { s with events := [.host (.write 0x00 (encode (.encrypt 0))), .core] } =
        .next u ∧
      t.state = u.state ∧ u.state = cipher s.state s.rk

/-- R237: decryption is DEC_ROUND 10, 9, ..., 0 in order. -/
def Obligations.InvCipherIsElevenDecRounds : Prop :=
  ∀ (b : Block) (rk : Schedule),
    invCipher b rk = (List.finRange 11).reverse.foldl (fun b i => decRound b rk i) b

/-- R235: decryption inverts encryption and encryption inverts decryption, for every block, under
the schedule of every key; this holds of every schedule, and so of those. -/
def Obligations.InvCipherInvertsCipher : Prop :=
  (∀ (b : Block) (rk : Schedule), invCipher (cipher b rk) rk = b ∧ cipher (invCipher b rk) rk = b) ∧
  ∀ b k : Block, invCipher (cipher b (keyExpansion k)) (keyExpansion k) = b ∧
    cipher (invCipher b (keyExpansion k)) (keyExpansion k) = b

/-- On the machine: from every idle state that holds a schedule, ENCRYPT and then DECRYPT, each
accepted and completed, leave STATE, KEY, the schedule and ERR as they were (R232, R234, R235).
The interleaving is written as a list of events (log entry 1). -/
def Obligations.EncryptThenDecryptRestoresState : Prop :=
  ∀ s : State, s.rstN = true → s.phase = .presented → s.sboxReady = true → s.inflight = none →
    s.keyValid = true →
    ∃ t : State,
      runSteps 4 { s with events :=
        [.host (.write 0x00 0x00000002), .core, .host (.write 0x00 0x00000003), .core] } =
        .next t ∧
      t.state = s.state ∧ t.key = s.key ∧ t.rk = s.rk ∧ t.err = s.err ∧ t.inflight = none ∧
      t.done = true

/-! ### The bus (20_memory.md) -/

/-- R66: what every register offset reads as. -/
def Obligations.BusReadTable : Prop :=
  ∀ s : State,
    (s.busy = true ↔ s.sboxReady = false ∨ s.inflight ≠ none) ∧
    busRead 0x00 s = 0x00000000 ∧
    busRead 0x01 s = (s.err.setWidth 32 <<< 4) ||| (if s.sboxReady then 8 else 0) |||
      (if s.keyValid then 4 else 0) ||| (if s.done then 2 else 0) ||| (if s.busy then 1 else 0) ∧
    busRead 0x02 s = (if s.ieErr then 2 else 0) ||| (if s.ieDone then 1 else 0) ∧
    busRead 0x03 s = 0x41455331 ∧
    busRead 0x04 s = (if s.sboxReady then ((ginv s.sqX).setWidth 32 <<< 24) |||
      ((invSbox s.sqX).setWidth 32 <<< 16) ||| ((sbox s.sqX).setWidth 32 <<< 8) ||| s.sqX.setWidth 32
      else s.sqX.setWidth 32) ∧
    busRead 0x05 s = ((gmul s.gfA s.gfB).setWidth 32 <<< 16) ||| (s.gfB.setWidth 32 <<< 8) |||
      s.gfA.setWidth 32 ∧
    (∀ k : Fin 4, busRead (BitVec.ofNat 6 (0x08 + k.val)) s = s.key.word k) ∧
    (∀ k : Fin 4, busRead (BitVec.ofNat 6 (0x0C + k.val)) s =
      if s.busy then 0 else s.state.word k) ∧
    (∀ (i : RoundIndex) (k : Fin 4), busRead (BitVec.ofNat 6 (0x10 + 4 * i.val + k.val)) s =
      if s.busy then 0 else s.rk[i].word k) ∧
    (∀ off : Offset, (off = 0x06 ∨ off = 0x07 ∨ off.toNat ≥ 0x3C) → busRead off s = 0x00000000)

/-- A host read returns the register's value and changes nothing of the hardware (20_memory.md R66,
R69). Where the value stands, `rdata`, is the model's choice (log entry 3). -/
def Obligations.ReadStepChangesNothing : Prop :=
  ∀ (s : State) (off : Offset) (rest : List Event),
    s.rstN = true → s.events = .host (.read off) :: rest →
    step s = .next { s with rdata := busRead off s, events := rest }

/-- R67: what a write to every register offset does. The CTRL clause has the invariant's first
clause as its premise; what `accept` does is another statement. -/
def Obligations.BusWriteTable : Prop :=
  ∀ (s : State) (v : Word),
    (s.phase = .presented →
      busWrite 0x00 v s = .next (accept (v.extractLsb' 0 4) (v.extractLsb' 8 4) s)) ∧
    busWrite 0x01 v s = .next { s with
      done := if v.getLsbD 1 then false else s.done
      err := if v.getLsbD 8 then 0 else s.err } ∧
    busWrite 0x02 v s = .next { s with ieDone := v.getLsbD 0, ieErr := v.getLsbD 1 } ∧
    busWrite 0x04 v s = .next { s with sqX := v.extractLsb' 0 8 } ∧
    busWrite 0x05 v s = .next { s with gfA := v.extractLsb' 0 8, gfB := v.extractLsb' 8 8 } ∧
    (∀ k : Fin 4, busWrite (BitVec.ofNat 6 (0x08 + k.val)) v s =
      .next (if s.busy then { s with err := 5 } else { s with key := s.key.setWord k v })) ∧
    (∀ k : Fin 4, busWrite (BitVec.ofNat 6 (0x0C + k.val)) v s =
      .next (if s.busy then { s with err := 5 } else { s with state := s.state.setWord k v })) ∧
    (∀ off : Offset, (off = 0x03 ∨ off = 0x06 ∨ off = 0x07 ∨ off.toNat ≥ 0x10) →
      busWrite off v s = .next s)

/-- R62: the packing of a 16-byte value into bus words, read and written. -/
def Obligations.WordPacking : Prop :=
  ∀ (b : Block) (k : Fin 4) (v : Word),
    b.word k = ((b.byte ⟨4 * k.val, by omega⟩).setWidth 32 <<< 24) |||
      ((b.byte ⟨4 * k.val + 1, by omega⟩).setWidth 32 <<< 16) |||
      ((b.byte ⟨4 * k.val + 2, by omega⟩).setWidth 32 <<< 8) |||
      (b.byte ⟨4 * k.val + 3, by omega⟩).setWidth 32 ∧
    (∀ r : Fin 4, (b.setWord k v).cell r k = v.extractLsb' (24 - 8 * r.val) 8) ∧
    (∀ j : Fin 4, j ≠ k → (b.setWord k v).col j = b.col j) ∧
    (b.setWord k v).word k = v

/-- A word written to KEY or STATE while idle reads back, and every other offset reads as before;
the writable bits of CFG, SBOXQ and GFMUL read back at any time (R62, R66, R67). -/
def Obligations.WrittenWordsReadBack : Prop :=
  ∀ (s : State) (v : Word),
    (s.busy = false → ∀ k : Fin 8, ∃ t : State,
      busWrite (BitVec.ofNat 6 (0x08 + k.val)) v s = .next t ∧
      busRead (BitVec.ofNat 6 (0x08 + k.val)) t = v ∧
      ∀ off : Offset, off ≠ BitVec.ofNat 6 (0x08 + k.val) → busRead off t = busRead off s) ∧
    (∃ t : State, busWrite 0x02 v s = .next t ∧ busRead 0x02 t = v &&& 0x3) ∧
    (∃ t : State, busWrite 0x04 v s = .next t ∧ busRead 0x04 t &&& 0xFF = v &&& 0xFF) ∧
    (∃ t : State, busWrite 0x05 v s = .next t ∧ busRead 0x05 t &&& 0xFFFF = v &&& 0xFFFF)

/-- Repeating any write but a CTRL write leaves the same state as writing it once (R69). -/
def Obligations.RepeatedWritesAreIdempotent : Prop :=
  ∀ (off : Offset) (v : Word) (s : State), off ≠ 0x00 →
    ∃ t : State, busWrite off v s = .next t ∧ busWrite off v t = .next t

/-- While busy, no read tells anything of STATE or of the schedule: replacing both changes no value
read (R66; 70_reset_and_hazards.md R296). -/
def Obligations.BusyHidesStateAndSchedule : Prop :=
  ∀ (s : State) (b : Block) (w : Schedule) (off : Offset), s.busy = true →
    busRead off { s with state := b, rk := w } = busRead off s

/-! ### Reset and start-up (70_reset_and_hazards.md) -/

/-- R290: RESET, from any state, sets every element to its reset value and abandons what is in
flight; while `rst_n` is held low, writes are ignored and reads return 0. What the host has read and
the events to come are the model's own and stay (log entries 1, 3 and 5). -/
def Obligations.ResetRule : Prop :=
  ∀ (s : State) (rest : List Event),
    (s.events = .reset :: rest → ∃ t : State, step s = .next t ∧
      (∀ i : Fin 16, t.key.byte i = 0 ∧ t.state.byte i = 0) ∧
      (∀ (n : RoundIndex) (i : Fin 16), t.rk[n].byte i = 0) ∧
      t.keyValid = false ∧ t.sboxReady = false ∧ t.inflight = none ∧ t.done = false ∧
      t.err = 0 ∧ t.ieDone = false ∧ t.ieErr = false ∧ t.sqX = 0 ∧ t.gfA = 0 ∧ t.gfB = 0 ∧
      t.rstN = true ∧ t.rdata = s.rdata ∧ t.events = rest) ∧
    (s.events = .resetLow :: rest → step s = .next { s with rstN := false, events := rest }) ∧
    (s.rstN = false → ∀ (off : Offset) (v : Word),
      (s.events = .host (.write off v) :: rest → step s = .next { s with events := rest }) ∧
      (s.events = .host (.read off) :: rest →
        step s = .next { s with rdata := 0, events := rest }))

/-- R291: the register values right after RESET, as read from the bus. -/
def Obligations.RegisterValuesAfterReset : Prop :=
  busRead 0x00 State.reset = 0x00000000 ∧ busRead 0x01 State.reset = 0x00000001 ∧
  busRead 0x02 State.reset = 0x00000000 ∧ busRead 0x03 State.reset = 0x41455331 ∧
  busRead 0x04 State.reset = 0x00000000 ∧
  busRead 0x04 State.reset.genDone = 0x00526300 ∧ busRead 0x05 State.reset = 0x00000000 ∧
  (∀ off : Offset, off.toNat ≥ 0x08 → busRead off State.reset = 0x00000000) ∧
  (∀ off : Offset, off.toNat ≥ 0x08 → busRead off State.reset.genDone = 0x00000000) ∧
  State.reset.irq = false

/-- GEN_DONE: while `sbox_ready = 0` the Core's step sets it, and nothing else (40_gf_sbox.md R131;
the tables are constants, 10_state.md R36). -/
def Obligations.GenDoneEndsStartUp : Prop :=
  ∀ s : State, s.rstN = true → s.sboxReady = false →
    (∀ rest, s.events = .core :: rest →
      step s = .next { s with sboxReady := true, events := rest }) ∧
    (s.events = [] → step s = .next { s with sboxReady := true })

/-! ### Whole-machine rules (10_state.md) -/

/-- The writers of every element: only these steps change it (10_state.md R39). -/
def Obligations.WritersOfEveryElement : Prop :=
  ∀ s t : State, step s = .next t →
    (t.key ≠ s.key → stepKind s = .reset ∨ (s.busy = false ∧ ∃ off v,
      stepKind s = .hostWrite off v ∧ 0x08 ≤ off.toNat ∧ off.toNat ≤ 0x0B)) ∧
    (t.state ≠ s.state → stepKind s = .reset ∨ (∃ c, stepKind s = .cmdDone c ∧ c.cmd ≠ 0x1) ∨
      (s.busy = false ∧ ∃ off v,
        stepKind s = .hostWrite off v ∧ 0x0C ≤ off.toNat ∧ off.toNat ≤ 0x0F)) ∧
    (t.rk ≠ s.rk → stepKind s = .reset ∨ ∃ c, stepKind s = .cmdDone c ∧ c.cmd = 0x1) ∧
    (t.keyValid ≠ s.keyValid →
      stepKind s = .reset ∨ ∃ c, stepKind s = .cmdDone c ∧ c.cmd = 0x1) ∧
    (t.sboxReady ≠ s.sboxReady → stepKind s = .reset ∨ stepKind s = .genDone) ∧
    (t.inflight ≠ s.inflight → stepKind s = .reset ∨ (∃ c, stepKind s = .cmdDone c) ∨
      ∃ v, stepKind s = .hostWrite 0x00 v) ∧
    (t.done ≠ s.done → stepKind s = .reset ∨ (∃ c, stepKind s = .cmdDone c) ∨
      (∃ v, stepKind s = .hostWrite 0x00 v) ∨
      ∃ v, stepKind s = .hostWrite 0x01 v ∧ v.getLsbD 1 = true) ∧
    (t.err ≠ s.err → stepKind s = .reset ∨ (∃ v, stepKind s = .hostWrite 0x00 v) ∨
      (∃ v, stepKind s = .hostWrite 0x01 v ∧ v.getLsbD 8 = true) ∨
      (s.busy = true ∧ ∃ off v,
        stepKind s = .hostWrite off v ∧ 0x08 ≤ off.toNat ∧ off.toNat ≤ 0x0F)) ∧
    (t.ieDone ≠ s.ieDone ∨ t.ieErr ≠ s.ieErr →
      stepKind s = .reset ∨ ∃ v, stepKind s = .hostWrite 0x02 v) ∧
    (t.sqX ≠ s.sqX → stepKind s = .reset ∨ ∃ v, stepKind s = .hostWrite 0x04 v) ∧
    (t.gfA ≠ s.gfA ∨ t.gfB ≠ s.gfB →
      stepKind s = .reset ∨ ∃ v, stepKind s = .hostWrite 0x05 v)

/-- R34: DONE is set by every CMD_DONE, and cleared by acceptance, by a STATUS write with bit 1 set
and by RESET; no other step changes it. -/
def Obligations.DoneRule : Prop :=
  ∀ s t : State, step s = .next t →
    let completes := ∃ c, stepKind s = .cmdDone c
    let accepts := ∃ v, stepKind s = .hostWrite 0x00 v ∧ s.inflight = none ∧ t.inflight ≠ none
    let clears := ∃ v, stepKind s = .hostWrite 0x01 v ∧ v.getLsbD 1 = true
    (completes → t.done = true) ∧
    (accepts ∨ clears ∨ stepKind s = .reset → t.done = false) ∧
    (¬completes → ¬accepts → ¬clears → stepKind s ≠ .reset → t.done = s.done)

/-- R35: ERR holds the code of the latest refusal; only a STATUS write with bit 8 set and RESET
clear it; accepted commands and completions leave it. -/
def Obligations.ErrRule : Prop :=
  ∀ s t : State, step s = .next t →
    ((∃ v, stepKind s = .hostWrite 0x01 v ∧ v.getLsbD 8 = true) ∨ stepKind s = .reset →
      t.err = 0) ∧
    (∀ v, stepKind s = .hostWrite 0x00 v →
      (s.inflight = none → t.inflight ≠ none → t.err = s.err) ∧
      (t.inflight = s.inflight → cmdField v ≠ 0 → t.err = 1 ∨ t.err = 2 ∨ t.err = 3 ∨ t.err = 4)) ∧
    ((∃ c, stepKind s = .cmdDone c) → t.err = s.err) ∧
    (∀ off v, stepKind s = .hostWrite off v → 0x08 ≤ off.toNat → off.toNat ≤ 0x0F →
      s.busy = true → t.err = 5) ∧
    (t.err = 0 → s.err ≠ 0 →
      (∃ v, stepKind s = .hostWrite 0x01 v ∧ v.getLsbD 8 = true) ∨ stepKind s = .reset)

/-- R31: KEY_VALID is 1 when `rk` holds the schedule of some key; the completion of KEY_EXPAND sets
it, RESET clears it, and no other step changes it; while it is 0 the keyed commands are refused
with NO_KEY. -/
def Obligations.KeyValidRule : Prop :=
  (∀ s : State, s.Inv → s.keyValid = true → ∃ k, s.rk = keyExpansion k) ∧
  (∀ s t : State, step s = .next t →
    ((∃ c, stepKind s = .cmdDone c ∧ c.cmd = 0x1) → t.keyValid = true) ∧
    (stepKind s = .reset → t.keyValid = false) ∧
    ((¬∃ c, stepKind s = .cmdDone c ∧ c.cmd = 0x1) → stepKind s ≠ .reset →
      t.keyValid = s.keyValid)) ∧
  (∀ (s : State) (x : RoundIndex) (y : Nibble), s.busy = false → s.phase = .presented →
    s.keyValid = false →
    let n : Nibble := BitVec.ofNat 4 x.val
    exec (.encrypt y) s = .next { s with err := 3 } ∧
    exec (.decrypt y) s = .next { s with err := 3 } ∧
    exec (.addRoundKey n) s = .next { s with err := 3 } ∧
    exec (.encRound n) s = .next { s with err := 3 } ∧
    exec (.decRound n) s = .next { s with err := 3 })

/-- R32: SBOX_READY goes to 1 by GEN_DONE and to 0 by RESET, and no other way; while it is 0 the
hardware is busy, every command but NOP is refused with BUSY, and SBOXQ's table fields read 0. -/
def Obligations.SboxReadyRule : Prop :=
  (∀ s t : State, step s = .next t →
    (stepKind s = .genDone → t.sboxReady = true) ∧ (stepKind s = .reset → t.sboxReady = false) ∧
    (stepKind s ≠ .genDone → stepKind s ≠ .reset → t.sboxReady = s.sboxReady)) ∧
  (State.reset.sboxReady = false) ∧
  ∀ s : State, s.sboxReady = false →
    s.busy = true ∧ busRead 0x04 s = s.sqX.setWidth 32 ∧
    ∀ v : Word, v.extractLsb' 0 4 ≠ 0 → s.phase = .presented →
      busWrite 0x00 v s = .next { s with err := 4 }

/-- R37: irq, and that it depends on four elements only. -/
def Obligations.IrqRule : Prop :=
  (∀ s : State, s.irq = true ↔ (s.ieDone = true ∧ s.done = true) ∨ (s.ieErr = true ∧ s.err ≠ 0)) ∧
  ∀ s t : State, t.ieDone = s.ieDone → t.done = s.done → t.ieErr = s.ieErr → t.err = s.err →
    t.irq = s.irq

/-! ### The invariant -/

/-- The state right after reset meets the invariant. -/
def Obligations.ResetStateMeetsTheInvariant : Prop := State.Inv State.reset

/-- Every step from a state that meets the invariant leads to one that does, whatever the agents
still have to do. -/
def Obligations.EveryStepKeepsTheInvariant : Prop :=
  ∀ s t : State, s.Inv → step s = .next t → t.Inv

/-- From a state that meets the invariant every step goes on: no fault and no refusal, "CMD_DONE
always succeeds" (60_exceptions.md R260, R265). -/
def Obligations.InvariantStatesNeverStop : Prop :=
  ∀ s : State, s.Inv → goesOn s

/-- Whatever the host does between acceptance and CMD_DONE, the command's result is that of the
values at acceptance: KEY, STATE and the schedule come out as if the Core had gone first
(30_encoding.md R101, 41_key_schedule.md R157).
The interleaving is written as a list of events, the model's choice (log entry 1). -/
def Obligations.HostCannotDisturbTheCommandInFlight : Prop :=
  ∀ (s : State) (as : List BusAccess) (rest : List Event),
    s.Inv → s.rstN = true → s.inflight ≠ none →
    ∃ t u : State,
      runSteps (as.length + 1) { s with events := as.map .host ++ .core :: rest } = .next t ∧
      runSteps 1 { s with events := .core :: rest } = .next u ∧
      t.key = u.key ∧ t.state = u.state ∧ t.rk = u.rk ∧ t.keyValid = u.keyValid ∧
      t.inflight = none ∧ t.done = true ∧ t.busy = false

/-- While busy, one Core step ends the wait: after it the hardware is idle (00_scope.md R10,
30_encoding.md R101, 40_gf_sbox.md R131). -/
def Obligations.CoreStepEndsTheWait : Prop :=
  ∀ (s : State) (rest : List Event), s.Inv → s.rstN = true → s.busy = true →
    (∃ t, step { s with events := .core :: rest } = .next t ∧ t.busy = false) ∧
    (∃ t, step { s with events := [] } = .next t ∧ t.busy = false)

end
end

