-- ==== Sys2Proof/Config.lean ====
section
/-! DEFINITION. The open parameters of the hardware (00_scope.md R12; 93_implementation_defined.md
I1 to I4). They have no value here, and no definition of the model reads them: "no functional
rule depends on them" (R12). -/

namespace Sys2Proof

/-- How many cycles beyond the first `LAT_GEN` takes. DESIGN CHOICE, safe: log entry 8. -/
opaque Config.latGenBeyondOne : Nat

/-- How many cycles beyond the first `LAT_CMD(cmd)` takes. DESIGN CHOICE, safe: log entry 8. -/
opaque Config.latCmdBeyondOne : Nibble → Nat

/-- `LAT_GEN`: clock cycles from reset to the end of S-box generation, at least 1 (R12). -/
def Config.latGen : Nat := Config.latGenBeyondOne + 1

/-- `LAT_CMD(cmd)`: cycles from acceptance to completion of a command, at least 1 (R12). -/
def Config.latCmd (cmd : Nibble) : Nat := Config.latCmdBeyondOne cmd + 1

/-- `AES_BASE`: where the platform places the register space (20_memory.md R61).
DESIGN CHOICE, safe: log entry 8. -/
opaque Config.aesBase : Nat

/-- `AES_IRQ`: how the platform routes `irq` (60_exceptions.md R266).
DESIGN CHOICE, safe: log entry 8. -/
opaque Config.aesIrq : Nat

end Sys2Proof
end

