-- ==== Sys2Proof/Laws/Gf.lean ====
section
/-! SUPPORT. `gmul` is linear in each operand (40_gf_sbox.md R121): what a proof about all pairs of
bytes, or about MixColumns, is reduced to cases over one byte with. -/

namespace Sys2Proof.Machine.Laws

/-- Doubling is linear. -/
theorem double_xor (a b : Byte) : double (a ^^^ b) = double a ^^^ double b := by
  unfold double
  simp only [BitVec.getLsbD_xor, BitVec.shiftLeft_xor_distrib]
  cases a.getLsbD 7 <;> cases b.getLsbD 7 <;> (simp; try ac_nf; try simp)

/-- One turn of the loop is linear in the pair `(a, r)`. -/
theorem gmulStep_xor (c : Byte) (p q : Byte × Byte) (j : Nat) :
    gmulStep c (p.1 ^^^ q.1, p.2 ^^^ q.2) j =
      ((gmulStep c p j).1 ^^^ (gmulStep c q j).1, (gmulStep c p j).2 ^^^ (gmulStep c q j).2) := by
  unfold gmulStep
  simp only [double_xor]
  cases c.getLsbD j <;> simp
  ac_rfl

/-- The loop is linear in the pair `(a, r)`. -/
theorem foldl_gmulStep_xor (c : Byte) (l : List Nat) (p q : Byte × Byte) :
    l.foldl (gmulStep c) (p.1 ^^^ q.1, p.2 ^^^ q.2) =
      ((l.foldl (gmulStep c) p).1 ^^^ (l.foldl (gmulStep c) q).1,
       (l.foldl (gmulStep c) p).2 ^^^ (l.foldl (gmulStep c) q).2) := by
  induction l generalizing p q with
  | nil => rfl
  | cons j l ih =>
    rw [List.foldl_cons, gmulStep_xor]
    exact ih _ _

/-- Linear in the first operand. -/
theorem gmul_xor_left (a b c : Byte) : gmul (a ^^^ b) c = gmul a c ^^^ gmul b c := by
  have h := foldl_gmulStep_xor c [0, 1, 2, 3, 4, 5, 6, 7] (a, 0) (b, 0)
  simp only [BitVec.xor_self] at h
  exact congrArg Prod.snd h

/-- The loop is linear in the second operand, for any split of the accumulator. -/
theorem foldl_gmulStep_right (b c : Byte) (l : List Nat) (a r r' : Byte) :
    (l.foldl (gmulStep (b ^^^ c)) (a, r ^^^ r')).2 =
      (l.foldl (gmulStep b) (a, r)).2 ^^^ (l.foldl (gmulStep c) (a, r')).2 := by
  induction l generalizing a r r' with
  | nil => rfl
  | cons j l ih =>
    have hj : gmulStep (b ^^^ c) (a, r ^^^ r') j =
        (double a, (gmulStep b (a, r) j).2 ^^^ (gmulStep c (a, r') j).2) := by
      unfold gmulStep
      simp only [BitVec.getLsbD_xor]
      cases b.getLsbD j <;> cases c.getLsbD j <;> (simp; try ac_nf; try simp)
    simp only [List.foldl_cons, hj]
    exact ih _ _ _

/-- Every byte is the exclusive OR of its eight single-bit parts: with linearity, a law over all
bytes follows from its eight cases. -/
theorem byte_parts : ∀ a : Byte,
    a = (a &&& 0x01) ^^^ (a &&& 0x02) ^^^ (a &&& 0x04) ^^^ (a &&& 0x08) ^^^ (a &&& 0x10) ^^^
      (a &&& 0x20) ^^^ (a &&& 0x40) ^^^ (a &&& 0x80) := by
  decide +kernel

end Sys2Proof.Machine.Laws
end

