-- ==== Sys2Proof/Laws/State.lean ====
section
/-! SUPPORT. One lemma per field per register update of Machine/Ops.lean, so that no later proof
unfolds an update. -/

namespace Sys2Proof.Machine.Laws

variable (s : State)

/-! `State.raiseError` -/
@[simp] theorem raiseError_key (c : BitVec 3) : (s.raiseError c).key = s.key := rfl
@[simp] theorem raiseError_state (c : BitVec 3) : (s.raiseError c).state = s.state := rfl
@[simp] theorem raiseError_rk (c : BitVec 3) : (s.raiseError c).rk = s.rk := rfl
@[simp] theorem raiseError_keyValid (c : BitVec 3) : (s.raiseError c).keyValid = s.keyValid := rfl
@[simp] theorem raiseError_sboxReady (c : BitVec 3) : (s.raiseError c).sboxReady = s.sboxReady := rfl
@[simp] theorem raiseError_inflight (c : BitVec 3) : (s.raiseError c).inflight = s.inflight := rfl
@[simp] theorem raiseError_done (c : BitVec 3) : (s.raiseError c).done = s.done := rfl
@[simp] theorem raiseError_err (c : BitVec 3) : (s.raiseError c).err = c := rfl
@[simp] theorem raiseError_ieDone (c : BitVec 3) : (s.raiseError c).ieDone = s.ieDone := rfl
@[simp] theorem raiseError_ieErr (c : BitVec 3) : (s.raiseError c).ieErr = s.ieErr := rfl
@[simp] theorem raiseError_sqX (c : BitVec 3) : (s.raiseError c).sqX = s.sqX := rfl
@[simp] theorem raiseError_gfA (c : BitVec 3) : (s.raiseError c).gfA = s.gfA := rfl
@[simp] theorem raiseError_gfB (c : BitVec 3) : (s.raiseError c).gfB = s.gfB := rfl
@[simp] theorem raiseError_rstN (c : BitVec 3) : (s.raiseError c).rstN = s.rstN := rfl
@[simp] theorem raiseError_rdata (c : BitVec 3) : (s.raiseError c).rdata = s.rdata := rfl
@[simp] theorem raiseError_phase (c : BitVec 3) : (s.raiseError c).phase = s.phase := rfl
@[simp] theorem raiseError_events (c : BitVec 3) : (s.raiseError c).events = s.events := rfl

/-! `State.clearDone` -/
@[simp] theorem clearDone_key : (s.clearDone).key = s.key := rfl
@[simp] theorem clearDone_state : (s.clearDone).state = s.state := rfl
@[simp] theorem clearDone_rk : (s.clearDone).rk = s.rk := rfl
@[simp] theorem clearDone_keyValid : (s.clearDone).keyValid = s.keyValid := rfl
@[simp] theorem clearDone_sboxReady : (s.clearDone).sboxReady = s.sboxReady := rfl
@[simp] theorem clearDone_inflight : (s.clearDone).inflight = s.inflight := rfl
@[simp] theorem clearDone_done : (s.clearDone).done = false := rfl
@[simp] theorem clearDone_err : (s.clearDone).err = s.err := rfl
@[simp] theorem clearDone_ieDone : (s.clearDone).ieDone = s.ieDone := rfl
@[simp] theorem clearDone_ieErr : (s.clearDone).ieErr = s.ieErr := rfl
@[simp] theorem clearDone_sqX : (s.clearDone).sqX = s.sqX := rfl
@[simp] theorem clearDone_gfA : (s.clearDone).gfA = s.gfA := rfl
@[simp] theorem clearDone_gfB : (s.clearDone).gfB = s.gfB := rfl
@[simp] theorem clearDone_rstN : (s.clearDone).rstN = s.rstN := rfl
@[simp] theorem clearDone_rdata : (s.clearDone).rdata = s.rdata := rfl
@[simp] theorem clearDone_phase : (s.clearDone).phase = s.phase := rfl
@[simp] theorem clearDone_events : (s.clearDone).events = s.events := rfl

/-! `State.clearErr` -/
@[simp] theorem clearErr_key : (s.clearErr).key = s.key := rfl
@[simp] theorem clearErr_state : (s.clearErr).state = s.state := rfl
@[simp] theorem clearErr_rk : (s.clearErr).rk = s.rk := rfl
@[simp] theorem clearErr_keyValid : (s.clearErr).keyValid = s.keyValid := rfl
@[simp] theorem clearErr_sboxReady : (s.clearErr).sboxReady = s.sboxReady := rfl
@[simp] theorem clearErr_inflight : (s.clearErr).inflight = s.inflight := rfl
@[simp] theorem clearErr_done : (s.clearErr).done = s.done := rfl
@[simp] theorem clearErr_err : (s.clearErr).err = 0 := rfl
@[simp] theorem clearErr_ieDone : (s.clearErr).ieDone = s.ieDone := rfl
@[simp] theorem clearErr_ieErr : (s.clearErr).ieErr = s.ieErr := rfl
@[simp] theorem clearErr_sqX : (s.clearErr).sqX = s.sqX := rfl
@[simp] theorem clearErr_gfA : (s.clearErr).gfA = s.gfA := rfl
@[simp] theorem clearErr_gfB : (s.clearErr).gfB = s.gfB := rfl
@[simp] theorem clearErr_rstN : (s.clearErr).rstN = s.rstN := rfl
@[simp] theorem clearErr_rdata : (s.clearErr).rdata = s.rdata := rfl
@[simp] theorem clearErr_phase : (s.clearErr).phase = s.phase := rfl
@[simp] theorem clearErr_events : (s.clearErr).events = s.events := rfl

/-! `State.setCfg` -/
@[simp] theorem setCfg_key (v : Word) : (s.setCfg v).key = s.key := rfl
@[simp] theorem setCfg_state (v : Word) : (s.setCfg v).state = s.state := rfl
@[simp] theorem setCfg_rk (v : Word) : (s.setCfg v).rk = s.rk := rfl
@[simp] theorem setCfg_keyValid (v : Word) : (s.setCfg v).keyValid = s.keyValid := rfl
@[simp] theorem setCfg_sboxReady (v : Word) : (s.setCfg v).sboxReady = s.sboxReady := rfl
@[simp] theorem setCfg_inflight (v : Word) : (s.setCfg v).inflight = s.inflight := rfl
@[simp] theorem setCfg_done (v : Word) : (s.setCfg v).done = s.done := rfl
@[simp] theorem setCfg_err (v : Word) : (s.setCfg v).err = s.err := rfl
@[simp] theorem setCfg_ieDone (v : Word) : (s.setCfg v).ieDone = v.getLsbD 0 := rfl
@[simp] theorem setCfg_ieErr (v : Word) : (s.setCfg v).ieErr = v.getLsbD 1 := rfl
@[simp] theorem setCfg_sqX (v : Word) : (s.setCfg v).sqX = s.sqX := rfl
@[simp] theorem setCfg_gfA (v : Word) : (s.setCfg v).gfA = s.gfA := rfl
@[simp] theorem setCfg_gfB (v : Word) : (s.setCfg v).gfB = s.gfB := rfl
@[simp] theorem setCfg_rstN (v : Word) : (s.setCfg v).rstN = s.rstN := rfl
@[simp] theorem setCfg_rdata (v : Word) : (s.setCfg v).rdata = s.rdata := rfl
@[simp] theorem setCfg_phase (v : Word) : (s.setCfg v).phase = s.phase := rfl
@[simp] theorem setCfg_events (v : Word) : (s.setCfg v).events = s.events := rfl

/-! `State.setSboxq` -/
@[simp] theorem setSboxq_key (v : Word) : (s.setSboxq v).key = s.key := rfl
@[simp] theorem setSboxq_state (v : Word) : (s.setSboxq v).state = s.state := rfl
@[simp] theorem setSboxq_rk (v : Word) : (s.setSboxq v).rk = s.rk := rfl
@[simp] theorem setSboxq_keyValid (v : Word) : (s.setSboxq v).keyValid = s.keyValid := rfl
@[simp] theorem setSboxq_sboxReady (v : Word) : (s.setSboxq v).sboxReady = s.sboxReady := rfl
@[simp] theorem setSboxq_inflight (v : Word) : (s.setSboxq v).inflight = s.inflight := rfl
@[simp] theorem setSboxq_done (v : Word) : (s.setSboxq v).done = s.done := rfl
@[simp] theorem setSboxq_err (v : Word) : (s.setSboxq v).err = s.err := rfl
@[simp] theorem setSboxq_ieDone (v : Word) : (s.setSboxq v).ieDone = s.ieDone := rfl
@[simp] theorem setSboxq_ieErr (v : Word) : (s.setSboxq v).ieErr = s.ieErr := rfl
@[simp] theorem setSboxq_sqX (v : Word) : (s.setSboxq v).sqX = v.extractLsb' 0 8 := rfl
@[simp] theorem setSboxq_gfA (v : Word) : (s.setSboxq v).gfA = s.gfA := rfl
@[simp] theorem setSboxq_gfB (v : Word) : (s.setSboxq v).gfB = s.gfB := rfl
@[simp] theorem setSboxq_rstN (v : Word) : (s.setSboxq v).rstN = s.rstN := rfl
@[simp] theorem setSboxq_rdata (v : Word) : (s.setSboxq v).rdata = s.rdata := rfl
@[simp] theorem setSboxq_phase (v : Word) : (s.setSboxq v).phase = s.phase := rfl
@[simp] theorem setSboxq_events (v : Word) : (s.setSboxq v).events = s.events := rfl

/-! `State.setGfmul` -/
@[simp] theorem setGfmul_key (v : Word) : (s.setGfmul v).key = s.key := rfl
@[simp] theorem setGfmul_state (v : Word) : (s.setGfmul v).state = s.state := rfl
@[simp] theorem setGfmul_rk (v : Word) : (s.setGfmul v).rk = s.rk := rfl
@[simp] theorem setGfmul_keyValid (v : Word) : (s.setGfmul v).keyValid = s.keyValid := rfl
@[simp] theorem setGfmul_sboxReady (v : Word) : (s.setGfmul v).sboxReady = s.sboxReady := rfl
@[simp] theorem setGfmul_inflight (v : Word) : (s.setGfmul v).inflight = s.inflight := rfl
@[simp] theorem setGfmul_done (v : Word) : (s.setGfmul v).done = s.done := rfl
@[simp] theorem setGfmul_err (v : Word) : (s.setGfmul v).err = s.err := rfl
@[simp] theorem setGfmul_ieDone (v : Word) : (s.setGfmul v).ieDone = s.ieDone := rfl
@[simp] theorem setGfmul_ieErr (v : Word) : (s.setGfmul v).ieErr = s.ieErr := rfl
@[simp] theorem setGfmul_sqX (v : Word) : (s.setGfmul v).sqX = s.sqX := rfl
@[simp] theorem setGfmul_gfA (v : Word) : (s.setGfmul v).gfA = v.extractLsb' 0 8 := rfl
@[simp] theorem setGfmul_gfB (v : Word) : (s.setGfmul v).gfB = v.extractLsb' 8 8 := rfl
@[simp] theorem setGfmul_rstN (v : Word) : (s.setGfmul v).rstN = s.rstN := rfl
@[simp] theorem setGfmul_rdata (v : Word) : (s.setGfmul v).rdata = s.rdata := rfl
@[simp] theorem setGfmul_phase (v : Word) : (s.setGfmul v).phase = s.phase := rfl
@[simp] theorem setGfmul_events (v : Word) : (s.setGfmul v).events = s.events := rfl

/-! `State.setKeyWord` -/
@[simp] theorem setKeyWord_key (k : Fin 4) (v : Word) : (s.setKeyWord k v).key = s.key.setWord k v := rfl
@[simp] theorem setKeyWord_state (k : Fin 4) (v : Word) : (s.setKeyWord k v).state = s.state := rfl
@[simp] theorem setKeyWord_rk (k : Fin 4) (v : Word) : (s.setKeyWord k v).rk = s.rk := rfl
@[simp] theorem setKeyWord_keyValid (k : Fin 4) (v : Word) : (s.setKeyWord k v).keyValid = s.keyValid := rfl
@[simp] theorem setKeyWord_sboxReady (k : Fin 4) (v : Word) : (s.setKeyWord k v).sboxReady = s.sboxReady := rfl
@[simp] theorem setKeyWord_inflight (k : Fin 4) (v : Word) : (s.setKeyWord k v).inflight = s.inflight := rfl
@[simp] theorem setKeyWord_done (k : Fin 4) (v : Word) : (s.setKeyWord k v).done = s.done := rfl
@[simp] theorem setKeyWord_err (k : Fin 4) (v : Word) : (s.setKeyWord k v).err = s.err := rfl
@[simp] theorem setKeyWord_ieDone (k : Fin 4) (v : Word) : (s.setKeyWord k v).ieDone = s.ieDone := rfl
@[simp] theorem setKeyWord_ieErr (k : Fin 4) (v : Word) : (s.setKeyWord k v).ieErr = s.ieErr := rfl
@[simp] theorem setKeyWord_sqX (k : Fin 4) (v : Word) : (s.setKeyWord k v).sqX = s.sqX := rfl
@[simp] theorem setKeyWord_gfA (k : Fin 4) (v : Word) : (s.setKeyWord k v).gfA = s.gfA := rfl
@[simp] theorem setKeyWord_gfB (k : Fin 4) (v : Word) : (s.setKeyWord k v).gfB = s.gfB := rfl
@[simp] theorem setKeyWord_rstN (k : Fin 4) (v : Word) : (s.setKeyWord k v).rstN = s.rstN := rfl
@[simp] theorem setKeyWord_rdata (k : Fin 4) (v : Word) : (s.setKeyWord k v).rdata = s.rdata := rfl
@[simp] theorem setKeyWord_phase (k : Fin 4) (v : Word) : (s.setKeyWord k v).phase = s.phase := rfl
@[simp] theorem setKeyWord_events (k : Fin 4) (v : Word) : (s.setKeyWord k v).events = s.events := rfl

/-! `State.setStateWord` -/
@[simp] theorem setStateWord_key (k : Fin 4) (v : Word) : (s.setStateWord k v).key = s.key := rfl
@[simp] theorem setStateWord_state (k : Fin 4) (v : Word) : (s.setStateWord k v).state = s.state.setWord k v := rfl
@[simp] theorem setStateWord_rk (k : Fin 4) (v : Word) : (s.setStateWord k v).rk = s.rk := rfl
@[simp] theorem setStateWord_keyValid (k : Fin 4) (v : Word) : (s.setStateWord k v).keyValid = s.keyValid := rfl
@[simp] theorem setStateWord_sboxReady (k : Fin 4) (v : Word) : (s.setStateWord k v).sboxReady = s.sboxReady := rfl
@[simp] theorem setStateWord_inflight (k : Fin 4) (v : Word) : (s.setStateWord k v).inflight = s.inflight := rfl
@[simp] theorem setStateWord_done (k : Fin 4) (v : Word) : (s.setStateWord k v).done = s.done := rfl
@[simp] theorem setStateWord_err (k : Fin 4) (v : Word) : (s.setStateWord k v).err = s.err := rfl
@[simp] theorem setStateWord_ieDone (k : Fin 4) (v : Word) : (s.setStateWord k v).ieDone = s.ieDone := rfl
@[simp] theorem setStateWord_ieErr (k : Fin 4) (v : Word) : (s.setStateWord k v).ieErr = s.ieErr := rfl
@[simp] theorem setStateWord_sqX (k : Fin 4) (v : Word) : (s.setStateWord k v).sqX = s.sqX := rfl
@[simp] theorem setStateWord_gfA (k : Fin 4) (v : Word) : (s.setStateWord k v).gfA = s.gfA := rfl
@[simp] theorem setStateWord_gfB (k : Fin 4) (v : Word) : (s.setStateWord k v).gfB = s.gfB := rfl
@[simp] theorem setStateWord_rstN (k : Fin 4) (v : Word) : (s.setStateWord k v).rstN = s.rstN := rfl
@[simp] theorem setStateWord_rdata (k : Fin 4) (v : Word) : (s.setStateWord k v).rdata = s.rdata := rfl
@[simp] theorem setStateWord_phase (k : Fin 4) (v : Word) : (s.setStateWord k v).phase = s.phase := rfl
@[simp] theorem setStateWord_events (k : Fin 4) (v : Word) : (s.setStateWord k v).events = s.events := rfl

/-! `State.putState` -/
@[simp] theorem putState_key (b : Block) : (s.putState b).key = s.key := rfl
@[simp] theorem putState_state (b : Block) : (s.putState b).state = b := rfl
@[simp] theorem putState_rk (b : Block) : (s.putState b).rk = s.rk := rfl
@[simp] theorem putState_keyValid (b : Block) : (s.putState b).keyValid = s.keyValid := rfl
@[simp] theorem putState_sboxReady (b : Block) : (s.putState b).sboxReady = s.sboxReady := rfl
@[simp] theorem putState_inflight (b : Block) : (s.putState b).inflight = s.inflight := rfl
@[simp] theorem putState_done (b : Block) : (s.putState b).done = s.done := rfl
@[simp] theorem putState_err (b : Block) : (s.putState b).err = s.err := rfl
@[simp] theorem putState_ieDone (b : Block) : (s.putState b).ieDone = s.ieDone := rfl
@[simp] theorem putState_ieErr (b : Block) : (s.putState b).ieErr = s.ieErr := rfl
@[simp] theorem putState_sqX (b : Block) : (s.putState b).sqX = s.sqX := rfl
@[simp] theorem putState_gfA (b : Block) : (s.putState b).gfA = s.gfA := rfl
@[simp] theorem putState_gfB (b : Block) : (s.putState b).gfB = s.gfB := rfl
@[simp] theorem putState_rstN (b : Block) : (s.putState b).rstN = s.rstN := rfl
@[simp] theorem putState_rdata (b : Block) : (s.putState b).rdata = s.rdata := rfl
@[simp] theorem putState_phase (b : Block) : (s.putState b).phase = s.phase := rfl
@[simp] theorem putState_events (b : Block) : (s.putState b).events = s.events := rfl

/-! `State.putSchedule` -/
@[simp] theorem putSchedule_key (w : Schedule) : (s.putSchedule w).key = s.key := rfl
@[simp] theorem putSchedule_state (w : Schedule) : (s.putSchedule w).state = s.state := rfl
@[simp] theorem putSchedule_rk (w : Schedule) : (s.putSchedule w).rk = w := rfl
@[simp] theorem putSchedule_keyValid (w : Schedule) : (s.putSchedule w).keyValid = true := rfl
@[simp] theorem putSchedule_sboxReady (w : Schedule) : (s.putSchedule w).sboxReady = s.sboxReady := rfl
@[simp] theorem putSchedule_inflight (w : Schedule) : (s.putSchedule w).inflight = s.inflight := rfl
@[simp] theorem putSchedule_done (w : Schedule) : (s.putSchedule w).done = s.done := rfl
@[simp] theorem putSchedule_err (w : Schedule) : (s.putSchedule w).err = s.err := rfl
@[simp] theorem putSchedule_ieDone (w : Schedule) : (s.putSchedule w).ieDone = s.ieDone := rfl
@[simp] theorem putSchedule_ieErr (w : Schedule) : (s.putSchedule w).ieErr = s.ieErr := rfl
@[simp] theorem putSchedule_sqX (w : Schedule) : (s.putSchedule w).sqX = s.sqX := rfl
@[simp] theorem putSchedule_gfA (w : Schedule) : (s.putSchedule w).gfA = s.gfA := rfl
@[simp] theorem putSchedule_gfB (w : Schedule) : (s.putSchedule w).gfB = s.gfB := rfl
@[simp] theorem putSchedule_rstN (w : Schedule) : (s.putSchedule w).rstN = s.rstN := rfl
@[simp] theorem putSchedule_rdata (w : Schedule) : (s.putSchedule w).rdata = s.rdata := rfl
@[simp] theorem putSchedule_phase (w : Schedule) : (s.putSchedule w).phase = s.phase := rfl
@[simp] theorem putSchedule_events (w : Schedule) : (s.putSchedule w).events = s.events := rfl

/-! `State.launch` -/
@[simp] theorem launch_key (c x : Nibble) : (s.launch c x).key = s.key := rfl
@[simp] theorem launch_state (c x : Nibble) : (s.launch c x).state = s.state := rfl
@[simp] theorem launch_rk (c x : Nibble) : (s.launch c x).rk = s.rk := rfl
@[simp] theorem launch_keyValid (c x : Nibble) : (s.launch c x).keyValid = s.keyValid := rfl
@[simp] theorem launch_sboxReady (c x : Nibble) : (s.launch c x).sboxReady = s.sboxReady := rfl
@[simp] theorem launch_inflight (c x : Nibble) : (s.launch c x).inflight = some ⟨c, x⟩ := rfl
@[simp] theorem launch_done (c x : Nibble) : (s.launch c x).done = false := rfl
@[simp] theorem launch_err (c x : Nibble) : (s.launch c x).err = s.err := rfl
@[simp] theorem launch_ieDone (c x : Nibble) : (s.launch c x).ieDone = s.ieDone := rfl
@[simp] theorem launch_ieErr (c x : Nibble) : (s.launch c x).ieErr = s.ieErr := rfl
@[simp] theorem launch_sqX (c x : Nibble) : (s.launch c x).sqX = s.sqX := rfl
@[simp] theorem launch_gfA (c x : Nibble) : (s.launch c x).gfA = s.gfA := rfl
@[simp] theorem launch_gfB (c x : Nibble) : (s.launch c x).gfB = s.gfB := rfl
@[simp] theorem launch_rstN (c x : Nibble) : (s.launch c x).rstN = s.rstN := rfl
@[simp] theorem launch_rdata (c x : Nibble) : (s.launch c x).rdata = s.rdata := rfl
@[simp] theorem launch_phase (c x : Nibble) : (s.launch c x).phase = s.phase := rfl
@[simp] theorem launch_events (c x : Nibble) : (s.launch c x).events = s.events := rfl

/-! `State.finish` -/
@[simp] theorem finish_key : (s.finish).key = s.key := rfl
@[simp] theorem finish_state : (s.finish).state = s.state := rfl
@[simp] theorem finish_rk : (s.finish).rk = s.rk := rfl
@[simp] theorem finish_keyValid : (s.finish).keyValid = s.keyValid := rfl
@[simp] theorem finish_sboxReady : (s.finish).sboxReady = s.sboxReady := rfl
@[simp] theorem finish_inflight : (s.finish).inflight = none := rfl
@[simp] theorem finish_done : (s.finish).done = true := rfl
@[simp] theorem finish_err : (s.finish).err = s.err := rfl
@[simp] theorem finish_ieDone : (s.finish).ieDone = s.ieDone := rfl
@[simp] theorem finish_ieErr : (s.finish).ieErr = s.ieErr := rfl
@[simp] theorem finish_sqX : (s.finish).sqX = s.sqX := rfl
@[simp] theorem finish_gfA : (s.finish).gfA = s.gfA := rfl
@[simp] theorem finish_gfB : (s.finish).gfB = s.gfB := rfl
@[simp] theorem finish_rstN : (s.finish).rstN = s.rstN := rfl
@[simp] theorem finish_rdata : (s.finish).rdata = s.rdata := rfl
@[simp] theorem finish_phase : (s.finish).phase = .presented := rfl
@[simp] theorem finish_events : (s.finish).events = s.events := rfl

/-! `State.genDone` -/
@[simp] theorem genDone_key : (s.genDone).key = s.key := rfl
@[simp] theorem genDone_state : (s.genDone).state = s.state := rfl
@[simp] theorem genDone_rk : (s.genDone).rk = s.rk := rfl
@[simp] theorem genDone_keyValid : (s.genDone).keyValid = s.keyValid := rfl
@[simp] theorem genDone_sboxReady : (s.genDone).sboxReady = true := rfl
@[simp] theorem genDone_inflight : (s.genDone).inflight = s.inflight := rfl
@[simp] theorem genDone_done : (s.genDone).done = s.done := rfl
@[simp] theorem genDone_err : (s.genDone).err = s.err := rfl
@[simp] theorem genDone_ieDone : (s.genDone).ieDone = s.ieDone := rfl
@[simp] theorem genDone_ieErr : (s.genDone).ieErr = s.ieErr := rfl
@[simp] theorem genDone_sqX : (s.genDone).sqX = s.sqX := rfl
@[simp] theorem genDone_gfA : (s.genDone).gfA = s.gfA := rfl
@[simp] theorem genDone_gfB : (s.genDone).gfB = s.gfB := rfl
@[simp] theorem genDone_rstN : (s.genDone).rstN = s.rstN := rfl
@[simp] theorem genDone_rdata : (s.genDone).rdata = s.rdata := rfl
@[simp] theorem genDone_phase : (s.genDone).phase = s.phase := rfl
@[simp] theorem genDone_events : (s.genDone).events = s.events := rfl

/-! `State.latch` -/
@[simp] theorem latch_key (v : Word) : (s.latch v).key = s.key := rfl
@[simp] theorem latch_state (v : Word) : (s.latch v).state = s.state := rfl
@[simp] theorem latch_rk (v : Word) : (s.latch v).rk = s.rk := rfl
@[simp] theorem latch_keyValid (v : Word) : (s.latch v).keyValid = s.keyValid := rfl
@[simp] theorem latch_sboxReady (v : Word) : (s.latch v).sboxReady = s.sboxReady := rfl
@[simp] theorem latch_inflight (v : Word) : (s.latch v).inflight = s.inflight := rfl
@[simp] theorem latch_done (v : Word) : (s.latch v).done = s.done := rfl
@[simp] theorem latch_err (v : Word) : (s.latch v).err = s.err := rfl
@[simp] theorem latch_ieDone (v : Word) : (s.latch v).ieDone = s.ieDone := rfl
@[simp] theorem latch_ieErr (v : Word) : (s.latch v).ieErr = s.ieErr := rfl
@[simp] theorem latch_sqX (v : Word) : (s.latch v).sqX = s.sqX := rfl
@[simp] theorem latch_gfA (v : Word) : (s.latch v).gfA = s.gfA := rfl
@[simp] theorem latch_gfB (v : Word) : (s.latch v).gfB = s.gfB := rfl
@[simp] theorem latch_rstN (v : Word) : (s.latch v).rstN = s.rstN := rfl
@[simp] theorem latch_rdata (v : Word) : (s.latch v).rdata = v := rfl
@[simp] theorem latch_phase (v : Word) : (s.latch v).phase = s.phase := rfl
@[simp] theorem latch_events (v : Word) : (s.latch v).events = s.events := rfl

/-! `State.withPhase` -/
@[simp] theorem withPhase_key (p : Phase) : (s.withPhase p).key = s.key := rfl
@[simp] theorem withPhase_state (p : Phase) : (s.withPhase p).state = s.state := rfl
@[simp] theorem withPhase_rk (p : Phase) : (s.withPhase p).rk = s.rk := rfl
@[simp] theorem withPhase_keyValid (p : Phase) : (s.withPhase p).keyValid = s.keyValid := rfl
@[simp] theorem withPhase_sboxReady (p : Phase) : (s.withPhase p).sboxReady = s.sboxReady := rfl
@[simp] theorem withPhase_inflight (p : Phase) : (s.withPhase p).inflight = s.inflight := rfl
@[simp] theorem withPhase_done (p : Phase) : (s.withPhase p).done = s.done := rfl
@[simp] theorem withPhase_err (p : Phase) : (s.withPhase p).err = s.err := rfl
@[simp] theorem withPhase_ieDone (p : Phase) : (s.withPhase p).ieDone = s.ieDone := rfl
@[simp] theorem withPhase_ieErr (p : Phase) : (s.withPhase p).ieErr = s.ieErr := rfl
@[simp] theorem withPhase_sqX (p : Phase) : (s.withPhase p).sqX = s.sqX := rfl
@[simp] theorem withPhase_gfA (p : Phase) : (s.withPhase p).gfA = s.gfA := rfl
@[simp] theorem withPhase_gfB (p : Phase) : (s.withPhase p).gfB = s.gfB := rfl
@[simp] theorem withPhase_rstN (p : Phase) : (s.withPhase p).rstN = s.rstN := rfl
@[simp] theorem withPhase_rdata (p : Phase) : (s.withPhase p).rdata = s.rdata := rfl
@[simp] theorem withPhase_phase (p : Phase) : (s.withPhase p).phase = p := rfl
@[simp] theorem withPhase_events (p : Phase) : (s.withPhase p).events = s.events := rfl

/-! `State.withEvents` -/
@[simp] theorem withEvents_key (es : List Event) : (s.withEvents es).key = s.key := rfl
@[simp] theorem withEvents_state (es : List Event) : (s.withEvents es).state = s.state := rfl
@[simp] theorem withEvents_rk (es : List Event) : (s.withEvents es).rk = s.rk := rfl
@[simp] theorem withEvents_keyValid (es : List Event) : (s.withEvents es).keyValid = s.keyValid := rfl
@[simp] theorem withEvents_sboxReady (es : List Event) : (s.withEvents es).sboxReady = s.sboxReady := rfl
@[simp] theorem withEvents_inflight (es : List Event) : (s.withEvents es).inflight = s.inflight := rfl
@[simp] theorem withEvents_done (es : List Event) : (s.withEvents es).done = s.done := rfl
@[simp] theorem withEvents_err (es : List Event) : (s.withEvents es).err = s.err := rfl
@[simp] theorem withEvents_ieDone (es : List Event) : (s.withEvents es).ieDone = s.ieDone := rfl
@[simp] theorem withEvents_ieErr (es : List Event) : (s.withEvents es).ieErr = s.ieErr := rfl
@[simp] theorem withEvents_sqX (es : List Event) : (s.withEvents es).sqX = s.sqX := rfl
@[simp] theorem withEvents_gfA (es : List Event) : (s.withEvents es).gfA = s.gfA := rfl
@[simp] theorem withEvents_gfB (es : List Event) : (s.withEvents es).gfB = s.gfB := rfl
@[simp] theorem withEvents_rstN (es : List Event) : (s.withEvents es).rstN = s.rstN := rfl
@[simp] theorem withEvents_rdata (es : List Event) : (s.withEvents es).rdata = s.rdata := rfl
@[simp] theorem withEvents_phase (es : List Event) : (s.withEvents es).phase = s.phase := rfl
@[simp] theorem withEvents_events (es : List Event) : (s.withEvents es).events = es := rfl

/-! `State.holdReset` -/
@[simp] theorem holdReset_key : (s.holdReset).key = s.key := rfl
@[simp] theorem holdReset_state : (s.holdReset).state = s.state := rfl
@[simp] theorem holdReset_rk : (s.holdReset).rk = s.rk := rfl
@[simp] theorem holdReset_keyValid : (s.holdReset).keyValid = s.keyValid := rfl
@[simp] theorem holdReset_sboxReady : (s.holdReset).sboxReady = s.sboxReady := rfl
@[simp] theorem holdReset_inflight : (s.holdReset).inflight = s.inflight := rfl
@[simp] theorem holdReset_done : (s.holdReset).done = s.done := rfl
@[simp] theorem holdReset_err : (s.holdReset).err = s.err := rfl
@[simp] theorem holdReset_ieDone : (s.holdReset).ieDone = s.ieDone := rfl
@[simp] theorem holdReset_ieErr : (s.holdReset).ieErr = s.ieErr := rfl
@[simp] theorem holdReset_sqX : (s.holdReset).sqX = s.sqX := rfl
@[simp] theorem holdReset_gfA : (s.holdReset).gfA = s.gfA := rfl
@[simp] theorem holdReset_gfB : (s.holdReset).gfB = s.gfB := rfl
@[simp] theorem holdReset_rstN : (s.holdReset).rstN = false := rfl
@[simp] theorem holdReset_rdata : (s.holdReset).rdata = s.rdata := rfl
@[simp] theorem holdReset_phase : (s.holdReset).phase = s.phase := rfl
@[simp] theorem holdReset_events : (s.holdReset).events = s.events := rfl

/-! `State.resetHardware` -/
@[simp] theorem resetHardware_key : s.resetHardware.key = zeroBlock := rfl
@[simp] theorem resetHardware_state : s.resetHardware.state = zeroBlock := rfl
@[simp] theorem resetHardware_rk : s.resetHardware.rk = Vector.replicate 11 zeroBlock := rfl
@[simp] theorem resetHardware_keyValid : s.resetHardware.keyValid = false := rfl
@[simp] theorem resetHardware_sboxReady : s.resetHardware.sboxReady = false := rfl
@[simp] theorem resetHardware_inflight : s.resetHardware.inflight = none := rfl
@[simp] theorem resetHardware_done : s.resetHardware.done = false := rfl
@[simp] theorem resetHardware_err : s.resetHardware.err = 0 := rfl
@[simp] theorem resetHardware_ieDone : s.resetHardware.ieDone = false := rfl
@[simp] theorem resetHardware_ieErr : s.resetHardware.ieErr = false := rfl
@[simp] theorem resetHardware_sqX : s.resetHardware.sqX = 0 := rfl
@[simp] theorem resetHardware_gfA : s.resetHardware.gfA = 0 := rfl
@[simp] theorem resetHardware_gfB : s.resetHardware.gfB = 0 := rfl
@[simp] theorem resetHardware_rstN : s.resetHardware.rstN = true := rfl
@[simp] theorem resetHardware_rdata : s.resetHardware.rdata = s.rdata := rfl
@[simp] theorem resetHardware_phase : s.resetHardware.phase = .presented := rfl
@[simp] theorem resetHardware_events : s.resetHardware.events = s.events := rfl

/-! `State.writeStatus`: it writes `done` and `err` only (20_memory.md R67). -/
@[simp] theorem writeStatus_key (v : Word) : (s.writeStatus v).key = s.key := by
  unfold State.writeStatus; dsimp only; split <;> split <;> rfl
@[simp] theorem writeStatus_state (v : Word) : (s.writeStatus v).state = s.state := by
  unfold State.writeStatus; dsimp only; split <;> split <;> rfl
@[simp] theorem writeStatus_rk (v : Word) : (s.writeStatus v).rk = s.rk := by
  unfold State.writeStatus; dsimp only; split <;> split <;> rfl
@[simp] theorem writeStatus_keyValid (v : Word) : (s.writeStatus v).keyValid = s.keyValid := by
  unfold State.writeStatus; dsimp only; split <;> split <;> rfl
@[simp] theorem writeStatus_sboxReady (v : Word) : (s.writeStatus v).sboxReady = s.sboxReady := by
  unfold State.writeStatus; dsimp only; split <;> split <;> rfl
@[simp] theorem writeStatus_inflight (v : Word) : (s.writeStatus v).inflight = s.inflight := by
  unfold State.writeStatus; dsimp only; split <;> split <;> rfl
@[simp] theorem writeStatus_ieDone (v : Word) : (s.writeStatus v).ieDone = s.ieDone := by
  unfold State.writeStatus; dsimp only; split <;> split <;> rfl
@[simp] theorem writeStatus_ieErr (v : Word) : (s.writeStatus v).ieErr = s.ieErr := by
  unfold State.writeStatus; dsimp only; split <;> split <;> rfl
@[simp] theorem writeStatus_sqX (v : Word) : (s.writeStatus v).sqX = s.sqX := by
  unfold State.writeStatus; dsimp only; split <;> split <;> rfl
@[simp] theorem writeStatus_gfA (v : Word) : (s.writeStatus v).gfA = s.gfA := by
  unfold State.writeStatus; dsimp only; split <;> split <;> rfl
@[simp] theorem writeStatus_gfB (v : Word) : (s.writeStatus v).gfB = s.gfB := by
  unfold State.writeStatus; dsimp only; split <;> split <;> rfl
@[simp] theorem writeStatus_rstN (v : Word) : (s.writeStatus v).rstN = s.rstN := by
  unfold State.writeStatus; dsimp only; split <;> split <;> rfl
@[simp] theorem writeStatus_rdata (v : Word) : (s.writeStatus v).rdata = s.rdata := by
  unfold State.writeStatus; dsimp only; split <;> split <;> rfl
@[simp] theorem writeStatus_phase (v : Word) : (s.writeStatus v).phase = s.phase := by
  unfold State.writeStatus; dsimp only; split <;> split <;> rfl
@[simp] theorem writeStatus_events (v : Word) : (s.writeStatus v).events = s.events := by
  unfold State.writeStatus; dsimp only; split <;> split <;> rfl
@[simp] theorem writeStatus_done (v : Word) :
    (s.writeStatus v).done = if v.getLsbD 1 then false else s.done := by
  unfold State.writeStatus; dsimp only; split <;> split <;> rfl
@[simp] theorem writeStatus_err (v : Word) :
    (s.writeStatus v).err = if v.getLsbD 8 then 0 else s.err := by
  unfold State.writeStatus; dsimp only; split <;> split <;> rfl

/-! `State.busy` depends on `sboxReady` and `inflight` only (10_state.md R25). -/
theorem busy_congr {s t : State} (hr : t.sboxReady = s.sboxReady) (hi : t.inflight = s.inflight) :
    t.busy = s.busy := by simp only [State.busy, hr, hi]
theorem not_busy_iff : s.busy = false ↔ s.sboxReady = true ∧ s.inflight = none := by
  cases hr : s.sboxReady <;> cases hi : s.inflight <;> simp [State.busy, hr, hi]

end Sys2Proof.Machine.Laws
end

