-- ==== Sys2Proof/Laws/Ops.lean ====
section
/-! SUPPORT. For each shared operation, once, everything it can do: what a later proof cites instead of
unfolding it. -/

namespace Sys2Proof.Machine.Laws

/-- Everything `Accept` can do (30_encoding.md R98), with the condition of each case. -/
theorem accept_cases (cmd idx : Nibble) (s : State) :
    (cmd = 0 ∧ accept cmd idx s = s) ∨
    (cmd ≠ 0 ∧ s.busy = true ∧ accept cmd idx s = s.raiseError errBusy) ∨
    (cmd ≠ 0 ∧ s.busy = false ∧ isReserved cmd = true ∧
      accept cmd idx s = s.raiseError errIllegalCmd) ∨
    (s.busy = false ∧ isReserved cmd = false ∧ isIndexed cmd = true ∧ idx.toNat > 10 ∧
      accept cmd idx s = s.raiseError errBadIndex) ∨
    (s.busy = false ∧ isReserved cmd = false ∧ (isIndexed cmd = true → idx.toNat ≤ 10) ∧
      isKeyed cmd = true ∧ s.keyValid = false ∧ accept cmd idx s = s.raiseError errNoKey) ∨
    (cmd ≠ 0 ∧ s.busy = false ∧ isReserved cmd = false ∧
      (isIndexed cmd = true → idx.toNat ≤ 10) ∧ (isKeyed cmd = true → s.keyValid = true) ∧
      accept cmd idx s = s.launch cmd idx) := by
  unfold accept
  by_cases h0 : cmd = 0
  · exact .inl ⟨h0, if_pos h0⟩
  refine .inr ?_
  rw [if_neg h0]
  cases hb : s.busy
  · refine .inr ?_
    cases hr : isReserved cmd
    · refine .inr ?_
      by_cases hx : isIndexed cmd = true ∧ idx.toNat > 10
      · exact .inl ⟨rfl, rfl, hx.1, hx.2, by simp [hx.1, hx.2]⟩
      · refine .inr ?_
        have hx' : isIndexed cmd = true → idx.toNat ≤ 10 := by
          intro h; by_contra hc; exact hx ⟨h, by omega⟩
        have hn : (isIndexed cmd && decide (idx.toNat > 10)) = false := by
          rw [Bool.eq_false_iff]; simpa using hx'
        rw [hn]
        cases hk : isKeyed cmd
        · exact .inr ⟨h0, rfl, rfl, hx', by simp, by simp⟩
        · cases hv : s.keyValid
          · exact .inl ⟨rfl, rfl, hx', rfl, rfl, by simp⟩
          · exact .inr ⟨h0, rfl, rfl, hx', by simp, by simp⟩
    · exact .inl ⟨h0, rfl, rfl, by simp⟩
  · exact .inl ⟨h0, rfl, by simp⟩

/-- `Accept` writes only `err`, `inflight` and `done` (30_encoding.md R98): the rest of the state is
the same record. -/
theorem accept_frame (cmd idx : Nibble) (s : State) :
    accept cmd idx s = { s with
      err := (accept cmd idx s).err
      inflight := (accept cmd idx s).inflight
      done := (accept cmd idx s).done } := by
  rcases accept_cases cmd idx s with ⟨_, h⟩ | ⟨_, _, h⟩ | ⟨_, _, _, h⟩ | ⟨_, _, _, _, h⟩ |
    ⟨_, _, _, _, _, h⟩ | ⟨_, _, _, _, _, h⟩ <;> rw [h] <;> rfl

/-- Everything the life of a command can do: accepted or refused when presented, its effect and the
end of CMD_DONE when completing. -/
theorem runCommand_next {cmd idx : Nibble} {effect : State → State} {s t : State}
    (h : runCommand cmd idx effect s = .next t) :
    (s.phase = .presented ∧ t = accept cmd idx s) ∨
    (s.phase = .completing ∧ t = (effect s).finish) := by
  unfold runCommand at h
  cases hp : s.phase <;> rw [hp] at h <;> cases h
  · exact .inl ⟨rfl, rfl⟩
  · exact .inr ⟨rfl, rfl⟩

/-- The life of a command never stops. -/
theorem runCommand_total (cmd idx : Nibble) (effect : State → State) (s : State) :
    ∃ t, runCommand cmd idx effect s = .next t := by
  unfold runCommand
  split <;> exact ⟨_, rfl⟩

/-- Everything the life of an indexed command can do when it goes on. -/
theorem runIndexed_next {cmd idx : Nibble} {effect : RoundIndex → State → State} {s t : State}
    (h : runIndexed cmd idx effect s = .next t) :
    (s.phase = .presented ∧ t = accept cmd idx s) ∨
    (s.phase = .completing ∧ ∃ i, roundIndex idx = some i ∧ t = (effect i s).finish) := by
  unfold runIndexed at h
  cases hp : s.phase <;> rw [hp] at h
  · cases h; exact .inl ⟨rfl, rfl⟩
  · cases hi : roundIndex idx <;> simp only [hi] at h <;> cases h
    exact .inr ⟨rfl, _, rfl, rfl⟩

/-- A legal IDX field is a round index with its value. -/
theorem roundIndex_of_legal {idx : Nibble} (h : idx.toNat ≤ 10) :
    roundIndex idx = some ⟨idx.toNat, by omega⟩ := by
  unfold roundIndex
  rw [dif_pos (by omega)]

/-- An IDX field above 10 is no round index. -/
theorem roundIndex_of_illegal {idx : Nibble} (h : idx.toNat > 10) : roundIndex idx = none := by
  unfold roundIndex
  rw [dif_neg (by omega)]

/-- Everything a write to a register other than CTRL can do (20_memory.md R67). -/
theorem writeRegister_cases (r : Reg) (v : Word) (s : State) :
    writeRegister r v s = s ∨ writeRegister r v s = s.writeStatus v ∨
    writeRegister r v s = s.setCfg v ∨ writeRegister r v s = s.setSboxq v ∨
    writeRegister r v s = s.setGfmul v ∨
    (s.busy = true ∧ writeRegister r v s = s.raiseError errWrBusy) ∨
    (s.busy = false ∧ ∃ k, r = .key k ∧ writeRegister r v s = s.setKeyWord k v) ∨
    (s.busy = false ∧ ∃ k, r = .state k ∧ writeRegister r v s = s.setStateWord k v) := by
  cases r <;> cases hb : s.busy <;> simp [writeRegister, hb]

/-- A write to a register never touches `inflight`, `rk`, `key_valid` or `sbox_ready`, nor the
model's own fields (10_state.md R39). -/
theorem writeRegister_frame (r : Reg) (v : Word) (s : State) :
    (writeRegister r v s).inflight = s.inflight ∧ (writeRegister r v s).rk = s.rk ∧
    (writeRegister r v s).keyValid = s.keyValid ∧
    (writeRegister r v s).sboxReady = s.sboxReady ∧ (writeRegister r v s).rstN = s.rstN ∧
    (writeRegister r v s).rdata = s.rdata ∧ (writeRegister r v s).phase = s.phase ∧
    (writeRegister r v s).events = s.events := by
  rcases writeRegister_cases r v s with h | h | h | h | h | ⟨_, h⟩ | ⟨_, _, _, h⟩ | ⟨_, _, _, h⟩ <;>
    rw [h] <;> simp

/-- A bus read depends on nothing but the spec's own elements: not on the model's fields
(20_memory.md R66). -/
theorem busRead_model_fields (off : Offset) (s : State) (r : Bool) (d : Word) (p : Phase)
    (es : List Event) :
    busRead off { s with rstN := r, rdata := d, phase := p, events := es } = busRead off s := by
  unfold busRead readRegister
  split <;> rfl

/-- The four bytes of a packed word, read back (00_scope.md R13). -/
theorem packBytes_bytes (b3 b2 b1 b0 : Byte) :
    (packBytes b3 b2 b1 b0).extractLsb' 24 8 = b3 ∧ (packBytes b3 b2 b1 b0).extractLsb' 16 8 = b2 ∧
    (packBytes b3 b2 b1 b0).extractLsb' 8 8 = b1 ∧ (packBytes b3 b2 b1 b0).extractLsb' 0 8 = b0 := by
  unfold packBytes
  refine ⟨?_, ?_, ?_, ?_⟩ <;> ext i hi <;> simp [hi] <;> interval_cases i <;> simp

/-- The bus word of an exclusive OR of columns (41_key_schedule.md R155). -/
theorem word_xor (t u : Column) : (t.xor u).word = t.word ^^^ u.word := by
  unfold Column.word Column.xor packBytes
  ext i hi
  simp only [BitVec.getElem_or, BitVec.getElem_xor, BitVec.getElem_shiftLeft,
    BitVec.getElem_setWidth, BitVec.getLsbD_xor]
  by_cases h1 : i < 8
  · simp [h1, show i < 16 by omega, show i < 24 by omega]
  by_cases h2 : i < 16
  · simp [h1, h2, show i < 24 by omega, BitVec.getLsbD_of_ge, show 8 ≤ i by omega]
  by_cases h3 : i < 24
  · simp [h1, h2, h3, BitVec.getLsbD_of_ge, show 8 ≤ i by omega, show 8 ≤ i - 8 by omega]
  · simp [h1, h2, h3, BitVec.getLsbD_of_ge, show 8 ≤ i by omega, show 8 ≤ i - 8 by omega,
      show 8 ≤ i - 16 by omega]

/-- The offsets a register can stand at: the address map R61, read backwards. -/
def standsAt (off : Offset) : Reg → Bool
  | .ctrl => decide (off.toNat = 0)
  | .status => decide (off.toNat = 1)
  | .cfg => decide (off.toNat = 2)
  | .ident => decide (off.toNat = 3)
  | .sboxq => decide (off.toNat = 4)
  | .gfmul => decide (off.toNat = 5)
  | .key k => decide (off.toNat = 0x08 + k.val)
  | .state k => decide (off.toNat = 0x0C + k.val)
  | .rk i k => decide (off.toNat = 0x10 + 4 * i.val + k.val)
  | .reserved => decide (off.toNat = 6 ∨ off.toNat = 7 ∨ 0x3C ≤ off.toNat)

/-- Every offset names the register that stands there. -/
theorem ofOffset_standsAt (off : Offset) : standsAt off (Reg.ofOffset off) = true := by
  have hl := off.isLt
  unfold Reg.ofOffset
  dsimp only
  repeat' split
  all_goals
    simp only [standsAt, decide_eq_true_eq, Fin.ofNat]
    omega

/-- Only offset 0x00 is CTRL (20_memory.md R61). -/
theorem ofOffset_ne_ctrl {off : Offset} (h : off ≠ 0) : Reg.ofOffset off ≠ .ctrl := by
  intro hc
  have hs : standsAt off (Reg.ofOffset off) = true := ofOffset_standsAt off
  rw [hc] at hs
  exact h (BitVec.eq_of_toNat_eq (by simpa [standsAt] using hs))

/-- What a read depends on, for every register but STATUS, STATE and RK (20_memory.md R66). -/
theorem readRegister_congr {r : Reg} {s t : State} (hk : t.key = s.key)
    (hr : t.sboxReady = s.sboxReady) (hd : t.ieDone = s.ieDone) (he : t.ieErr = s.ieErr)
    (hx : t.sqX = s.sqX) (ha : t.gfA = s.gfA) (hb : t.gfB = s.gfB)
    (hst : r ≠ .status) (hs : ∀ k, r ≠ .state k) (hrk : ∀ i k, r ≠ .rk i k) :
    readRegister r t = readRegister r s := by
  cases r
  case status => exact absurd rfl hst
  case state k => exact absurd rfl (hs k)
  case rk i k => exact absurd rfl (hrk i k)
  all_goals
    simp only [readRegister, State.cfgWord, State.sboxqWord, State.gfmulWord, hk, hr, hd, he, hx,
      ha, hb]

/-- `Accept`, field by field: it refuses, leaving `inflight` and `done`, or it launches a pair that
acceptance lets through (30_encoding.md R98). -/
theorem accept_fields (cmd idx : Nibble) (s : State) :
    ((accept cmd idx s).inflight = s.inflight ∧ (accept cmd idx s).done = s.done ∧
      (cmd = 0 ∧ (accept cmd idx s).err = s.err ∨
       cmd ≠ 0 ∧ 1 ≤ (accept cmd idx s).err.toNat ∧ (accept cmd idx s).err.toNat ≤ 4)) ∨
    (s.inflight = none ∧ s.sboxReady = true ∧ cmd ≠ 0 ∧ isReserved cmd = false ∧
      (isIndexed cmd = true → idx.toNat ≤ 10) ∧ (isKeyed cmd = true → s.keyValid = true) ∧
      (accept cmd idx s).inflight = some ⟨cmd, idx⟩ ∧ (accept cmd idx s).done = false ∧
      (accept cmd idx s).err = s.err) := by
  rcases accept_cases cmd idx s with ⟨h0, h⟩ | ⟨h0, _, h⟩ | ⟨h0, _, _, h⟩ | ⟨_, _, hx, _, h⟩ |
    ⟨_, _, _, hk, _, h⟩ | ⟨h0, hb, hr, hx, hk, h⟩ <;> rw [h]
  · exact .inl ⟨rfl, rfl, .inl ⟨h0, rfl⟩⟩
  · exact .inl ⟨rfl, rfl, .inr ⟨h0, by simp [errBusy]⟩⟩
  · exact .inl ⟨rfl, rfl, .inr ⟨h0, by simp [errIllegalCmd]⟩⟩
  · exact .inl ⟨rfl, rfl, .inr ⟨by rintro rfl; exact absurd hx (by decide), by simp [errBadIndex]⟩⟩
  · exact .inl ⟨rfl, rfl, .inr ⟨by rintro rfl; exact absurd hk (by decide), by simp [errNoKey]⟩⟩
  · obtain ⟨h1, h2⟩ := (not_busy_iff s).1 hb
    exact .inr ⟨h2, h1, h0, hr, hx, hk, rfl, rfl, rfl⟩

end Sys2Proof.Machine.Laws
end

