-- ==== Sys2Proof/Laws/PerInstr.lean ====
section
/-! SUPPORT. What holds of every command as syntax, one lemma per command. -/

/-- The word of a command carries its CMD and its IDX where R91 puts them, its reserved bits are 0
(30_encoding.md R91, R103), its CMD is none of the reserved values (R94), and it is ill formed only
with an index above 10 (R92). -/
def Sys2Proof.Laws.WordFields.Statement (i : Sys2Proof.Instr) : Prop :=
  Sys2Proof.cmdField (Sys2Proof.encode i) = i.code ∧
  Sys2Proof.idxField (Sys2Proof.encode i) = i.index ∧
  Sys2Proof.encode i &&& 0xFFFFF0F0 = 0 ∧ i.code.toNat ≤ 0xC ∧
  (i.index.toNat ≤ 10 → i.wellFormed = true)

namespace Sys2Proof.Laws.WordFields

theorem nop : Statement .nop := by unfold Statement; decide

theorem keyExpand : ∀ idx : Nibble, Statement (.keyExpand idx) := by unfold Statement; decide

theorem encrypt : ∀ idx : Nibble, Statement (.encrypt idx) := by unfold Statement; decide

theorem decrypt : ∀ idx : Nibble, Statement (.decrypt idx) := by unfold Statement; decide

theorem subBytes : ∀ idx : Nibble, Statement (.subBytes idx) := by unfold Statement; decide

theorem shiftRows : ∀ idx : Nibble, Statement (.shiftRows idx) := by unfold Statement; decide

theorem mixColumns : ∀ idx : Nibble, Statement (.mixColumns idx) := by unfold Statement; decide

theorem addRoundKey : ∀ idx : Nibble, Statement (.addRoundKey idx) := by unfold Statement; decide

theorem invSubBytes : ∀ idx : Nibble, Statement (.invSubBytes idx) := by unfold Statement; decide

theorem invShiftRows : ∀ idx : Nibble, Statement (.invShiftRows idx) := by unfold Statement; decide

theorem invMixColumns : ∀ idx : Nibble, Statement (.invMixColumns idx) := by unfold Statement; decide

theorem encRound : ∀ idx : Nibble, Statement (.encRound idx) := by unfold Statement; decide

theorem decRound : ∀ idx : Nibble, Statement (.decRound idx) := by unfold Statement; decide

end Sys2Proof.Laws.WordFields
end

