-- ==== Sys2Proof/Laws/Step.lean ====
section
/-! SUPPORT. What one step of the machine does, once per kind of step: the inversion that every claim
about all steps is derived from. -/

namespace Sys2Proof.Machine.Laws

/-- What each command does, as a life of the shared shape, and which registers its effect can write
(30_encoding.md R98, R101; 10_state.md R39). -/
theorem exec_shape (i : Instr) :
    i = .nop ∨
    (i.code = 1 ∧ ∀ s, exec i s =
      runCommand i.code i.index (fun s => s.putSchedule (keyExpansion s.key)) s) ∨
    (i.code ≠ 1 ∧ ∃ f : State → Block, ∀ s, exec i s =
      runCommand i.code i.index (fun s => s.putState (f s)) s) ∨
    (i.code ≠ 1 ∧ isIndexed i.code = true ∧ ∃ f : RoundIndex → State → Block, ∀ s, exec i s =
      runIndexed i.code i.index (fun n s => s.putState (f n s)) s) := by
  cases i
  case nop => exact .inl rfl
  case keyExpand => exact .inr (.inl ⟨rfl, fun _ => rfl⟩)
  case addRoundKey | encRound | decRound =>
    exact .inr (.inr (.inr ⟨by simp [Instr.code], rfl, _, fun _ => rfl⟩))
  all_goals exact .inr (.inr (.inl ⟨by simp [Instr.code], _, fun _ => rfl⟩))

/-- Presenting a command never stops: it is `Accept` of its fields. -/
theorem exec_presented (i : Instr) {s : State} (hp : s.phase = .presented) :
    exec i s = .next (accept i.code i.index s) := by
  rcases exec_shape i with rfl | ⟨-, h⟩ | ⟨-, f, h⟩ | ⟨-, -, f, h⟩
  · rw [show accept (Instr.code .nop) (Instr.index .nop) s = s from if_pos rfl]; rfl
  · rw [h, runCommand, hp]
  · rw [h, runCommand, hp]
  · rw [h, runIndexed, hp]

/-- What the fields decode to keeps the fields, but for the IDX of NOP. -/
theorem decodeFields_ok {cmd idx : Nibble} {i : Instr} (h : decodeFields cmd idx = .ok i) :
    i.code = cmd ∧ (i = .nop ∨ i.index = idx) := by
  revert h
  have hc : cmd = BitVec.ofNat 4 cmd.toNat := by simp
  have hl := cmd.isLt
  unfold decodeFields
  split <;> intro h <;> cases h <;> rename_i hn <;> rw [hc, hn] <;>
    first | exact ⟨rfl, .inl rfl⟩ | exact ⟨rfl, .inr rfl⟩

/-- The fields that decode to no command are the reserved ones (30_encoding.md R94). -/
theorem decodeFields_error_iff (cmd idx : Nibble) :
    (∃ e, decodeFields cmd idx = .error e) ↔ isReserved cmd = true := by
  revert cmd idx
  have h : ∀ cmd : Nibble, isReserved cmd = true ↔
      cmd = 0xD ∨ cmd = 0xE ∨ cmd = 0xF := by decide
  intro cmd idx
  rw [h]
  constructor
  · rintro ⟨e, he⟩
    by_contra hn
    have : ∀ c : Nibble, ¬(c = 0xD ∨ c = 0xE ∨ c = 0xF) → ∀ x e,
        decodeFields c x ≠ .error e := by
      intro c hc x e
      have hl := c.isLt
      rw [show c = BitVec.ofNat 4 c.toNat by simp] at hc ⊢
      generalize c.toNat = n at *
      interval_cases n <;> simp_all [decodeFields]
    exact this cmd hn idx e he
  · rintro (rfl | rfl | rfl) <;> exact ⟨_, rfl⟩

/-- A CTRL write is `Accept` of its two fields, whatever the word (30_encoding.md R100). -/
theorem presentWord_accept (v : Word) (s : State) :
    presentWord v s = .next (accept (cmdField v) (idxField v) (s.withPhase .presented)) := by
  unfold presentWord
  split
  · rename_i i h
    obtain ⟨hc, hx⟩ := decodeFields_ok h
    rw [exec_presented i (withPhase_phase _ _), hc]
    rcases hx with rfl | hx
    · have : cmdField v = 0 := hc.symm
      simp [accept, this]
    · rw [hx]
  · rfl

/-- A bus write never stops: it is `Accept`, or the write of one register. -/
theorem busWrite_next (off : Offset) (v : Word) (s : State) :
    busWrite off v s = .next (if Reg.ofOffset off = .ctrl
      then accept (cmdField v) (idxField v) (s.withPhase .presented)
      else writeRegister (Reg.ofOffset off) v s) := by
  unfold busWrite
  split
  · rename_i h; rw [if_pos h, presentWord_accept]
  · rename_i h; rw [if_neg h]

/-- What completing a command that is in flight does: all it can write is `state`, `rk` and
`key_valid`, and it ends. -/
theorem cmdDone_next {c : InFlight} {s t : State} (h : cmdDone c s = .next t) :
    t = { s with
      state := t.state, rk := t.rk, keyValid := t.keyValid
      inflight := none, done := true, phase := .presented } ∧
    ((c.cmd = 1 ∧ t.state = s.state ∧ t.rk = keyExpansion s.key ∧ t.keyValid = true) ∨
     (c.cmd ≠ 1 ∧ t.rk = s.rk ∧ t.keyValid = s.keyValid)) := by
  unfold cmdDone at h
  split at h
  · cases h
  · rename_i i hne hd
    obtain ⟨hc, -⟩ := decodeFields_ok hd
    rw [← hc]
    rcases exec_shape i with rfl | ⟨h1, he⟩ | ⟨h1, f, he⟩ | ⟨h1, -, f, he⟩
    · exact absurd rfl (hne ·)
    · rw [he] at h
      rcases runCommand_next h with ⟨hp, _⟩ | ⟨-, rfl⟩
      · cases hp
      · exact ⟨rfl, .inl ⟨h1, rfl, rfl, rfl⟩⟩
    · rw [he] at h
      rcases runCommand_next h with ⟨hp, _⟩ | ⟨-, rfl⟩
      · cases hp
      · exact ⟨rfl, .inr ⟨h1, rfl, rfl⟩⟩
    · rw [he] at h
      rcases runIndexed_next h with ⟨hp, _⟩ | ⟨-, _, _, rfl⟩
      · cases hp
      · exact ⟨rfl, .inr ⟨h1, rfl, rfl⟩⟩
  · cases h

/-- The Core's next step, with the condition of each kind. -/
theorem coreKind_cases (s : State) :
    (coreKind s = .nothing ∧ coreStep s = .next s ∧
      (s.rstN = false ∨ (s.sboxReady = true ∧ s.inflight = none))) ∨
    (coreKind s = .genDone ∧ coreStep s = .next s.genDone ∧ s.rstN = true ∧
      s.sboxReady = false) ∨
    (∃ c, coreKind s = .cmdDone c ∧ coreStep s = cmdDone c s ∧ s.rstN = true ∧
      s.sboxReady = true ∧ s.inflight = some c) := by
  cases hn : s.rstN
  · exact .inl ⟨by simp [coreKind, hn], by simp [coreStep, hn], .inl rfl⟩
  cases hr : s.sboxReady
  · exact .inr (.inl ⟨by simp [coreKind, hn, hr], by simp [coreStep, hn, hr], rfl, rfl⟩)
  cases hi : s.inflight
  · exact .inl ⟨by simp [coreKind, hn, hr, hi], by simp [coreStep, hn, hr, hi], .inr ⟨rfl, rfl⟩⟩
  · exact .inr (.inr ⟨_, by simp [coreKind, hn, hr, hi], by simp [coreStep, hn, hr, hi], rfl, rfl,
      rfl⟩)

/-- The kind of the Core's step does not depend on the events still to come. -/
theorem coreKind_withEvents (s : State) (es : List Event) :
    coreKind (s.withEvents es) = coreKind s := rfl

/-- One step of the machine, by its kind, at the state with its first event taken off. -/
theorem step_of_kind (s : State) :
    step s = match stepKind s with
      | .hostRead off =>
        .next ((s.withEvents s.events.tail).latch (if s.rstN then busRead off s else 0))
      | .hostWrite off v => busWrite off v (s.withEvents s.events.tail)
      | .genDone => .next (s.withEvents s.events.tail).genDone
      | .cmdDone c => cmdDone c (s.withEvents s.events.tail)
      | .resetLow => .next (s.withEvents s.events.tail).holdReset
      | .reset => .next (s.withEvents s.events.tail).resetHardware
      | .nothing => .next (s.withEvents s.events.tail) := by
  have core : ∀ es, coreStep (s.withEvents es) = match coreKind s with
      | .hostRead off => .next ((s.withEvents es).latch (if s.rstN then busRead off s else 0))
      | .hostWrite off v => busWrite off v (s.withEvents es)
      | .genDone => .next (s.withEvents es).genDone
      | .cmdDone c => cmdDone c (s.withEvents es)
      | .resetLow => .next (s.withEvents es).holdReset
      | .reset => .next (s.withEvents es).resetHardware
      | .nothing => .next (s.withEvents es) := by
    intro es
    rcases coreKind_cases (s.withEvents es) with ⟨hk, hs, -⟩ | ⟨hk, hs, -⟩ | ⟨c, hk, hs, -⟩ <;>
      rw [coreKind_withEvents] at hk <;> rw [hk, hs]
  unfold step takeStep stepKind
  cases he : s.events with
  | nil =>
    have hs : s.withEvents [] = s := by unfold State.withEvents; rw [← he]
    have := core []
    rw [hs] at this
    simpa [hs] using this
  | cons e rest =>
    cases e with
    | core => exact core rest
    | resetLow => rfl
    | reset => rfl
    | host a =>
      cases a with
      | read off =>
        simp only [takeEvent, hostStep, withEvents_rstN, List.tail_cons]
        have hb : busRead off (s.withEvents rest) = busRead off s :=
          busRead_model_fields off s s.rstN s.rdata s.phase rest
        rw [hb]
        rfl
      | write off v =>
        cases hr : s.rstN <;> simp [takeEvent, hostStep, hr]

/-- A Core step of the machine is the Core's own kind of step. -/
theorem coreKind_of_stepKind {s : State} {k : StepKind} (h : stepKind s = k)
    (hk : k = .genDone ∨ ∃ c, k = .cmdDone c) : coreKind s = k := by
  subst h
  unfold stepKind at *
  split at hk <;> rename_i he <;> try split at hk
  all_goals first | rfl | simp at hk

/-- Everything a step that goes on can do, by its kind: the inversion that every claim about all
steps starts from. -/
theorem step_next {s t : State} (h : step s = .next t) :
    (∃ off, stepKind s = .hostRead off ∧
      t = (s.withEvents s.events.tail).latch (if s.rstN then busRead off s else 0)) ∨
    (∃ v, stepKind s = .hostWrite 0 v ∧ t = accept (cmdField v) (idxField v)
      ((s.withEvents s.events.tail).withPhase .presented)) ∨
    (∃ off v, stepKind s = .hostWrite off v ∧ off ≠ 0 ∧
      t = writeRegister (Reg.ofOffset off) v (s.withEvents s.events.tail)) ∨
    (stepKind s = .genDone ∧ s.sboxReady = false ∧ t = (s.withEvents s.events.tail).genDone) ∨
    (∃ c, stepKind s = .cmdDone c ∧ s.sboxReady = true ∧ s.inflight = some c ∧
      cmdDone c (s.withEvents s.events.tail) = .next t) ∨
    (stepKind s = .resetLow ∧ t = (s.withEvents s.events.tail).holdReset) ∨
    (stepKind s = .reset ∧ t = (s.withEvents s.events.tail).resetHardware) ∨
    (stepKind s = .nothing ∧ t = s.withEvents s.events.tail) := by
  rw [step_of_kind] at h
  cases hk : stepKind s <;> rw [hk] at h
  case hostRead off => cases h; exact .inl ⟨_, rfl, rfl⟩
  case hostWrite off v =>
    simp only [busWrite_next] at h
    by_cases h0 : off = 0
    · subst h0
      rw [if_pos (by rfl)] at h
      cases h
      exact .inr (.inl ⟨_, rfl, rfl⟩)
    · rw [if_neg (ofOffset_ne_ctrl h0)] at h
      cases h
      exact .inr (.inr (.inl ⟨_, _, rfl, h0, rfl⟩))
  case genDone =>
    cases h
    have hc := coreKind_of_stepKind hk (.inl rfl)
    rcases coreKind_cases s with ⟨h1, _⟩ | ⟨_, _, _, h2⟩ | ⟨c, h1, _⟩
    · rw [hc] at h1; cases h1
    · exact .inr (.inr (.inr (.inl ⟨rfl, h2, rfl⟩)))
    · rw [hc] at h1; cases h1
  case cmdDone c =>
    have hc := coreKind_of_stepKind hk (.inr ⟨_, rfl⟩)
    rcases coreKind_cases s with ⟨h1, _⟩ | ⟨h1, _⟩ | ⟨c', h1, _, _, h2, h3⟩ <;> rw [hc] at h1 <;>
      cases h1
    exact .inr (.inr (.inr (.inr (.inl ⟨_, rfl, h2, h3, h⟩))))
  case resetLow => cases h; exact .inr (.inr (.inr (.inr (.inr (.inl ⟨rfl, rfl⟩)))))
  case reset => cases h; exact .inr (.inr (.inr (.inr (.inr (.inr (.inl ⟨rfl, rfl⟩))))))
  case nothing => cases h; exact .inr (.inr (.inr (.inr (.inr (.inr (.inr ⟨rfl, rfl⟩))))))

/-- No step taken. -/
@[simp] theorem runSteps_zero (s : State) : runSteps 0 s = .next s := rfl

/-- One step, and then the rest of the run. -/
theorem runSteps_succ {n : Nat} {s t : State} (h : step s = .next t) :
    runSteps (n + 1) s = runSteps n t := by
  have hc : Sys2Proof.core.step s = .next t := h
  simp only [runSteps, Host.Core.run, hc]
  rfl

end Sys2Proof.Machine.Laws
end

