-- ==== Sys2Proof/Tests/Slice0.lean ====
section
/-! SUPPORT. Tests against the worked values of spec/95_test_vectors.md, and for each obligation that has
hypotheses a state and operands that meet them. -/

namespace Sys2Proof.Tests

open Sys2Proof.Machine

set_option Elab.async false

/-! ### Small states -/

/-- The key of 95_test_vectors.md V1. -/
def katKey : Block := Block.ofHex 0xc32c5ca6b5805e0cdb8da57a2ab6fe5c

/-- Idle, with the S-box ready, no key, and `b` in STATE. -/
def ready (b : BitVec 128) : State :=
  { State.reset with sboxReady := true, state := Block.ofHex b }

/-- Idle, with the KAT key expanded, and `b` in STATE. -/
def keyed (b : BitVec 128) : State :=
  { ready b with key := katKey, rk := keyExpansion katKey, keyValid := true }

/-- Idle, with `k` as every round key, and `b` in STATE: for commands that use one round key. -/
def withRoundKey (k b : BitVec 128) : State :=
  { ready b with rk := Vector.replicate 11 (Block.ofHex k), keyValid := true }

/-- ENCRYPT in flight. -/
def flying (b : BitVec 128) : State := { keyed b with inflight := some ⟨0x2, 0⟩ }

/-- The state an outcome goes on in. -/
def nextOf : Host.Outcome State Fault Refusal → Option State
  | .next t => some t
  | _ => none

/-- STATE after the command word `w`, run by the very next step. -/
def stateAfter (w : Nat) (s : State) : Option Block :=
  (nextOf (step (s.withFetchWord 32 w))).map State.state

/-- ERR, `inflight` and DONE after the bus write of `v` at `off`. -/
def afterWrite (off : Offset) (v : Word) (s : State) :
    Option (BitVec 3 × Option InFlight × Bool) :=
  (nextOf (step { s with events := [.host (.write off v)] })).map
    fun t => (t.err, t.inflight, t.done)

/-- What offset `r` reads as after the bus write of `v` at `off`. -/
def readAfterWrite (off : Offset) (v : Word) (r : Offset) (s : State) : Option Word :=
  (nextOf (busWrite off v s)).map (busRead r)

/-! ### Well-formedness -/

theorem test_addRoundKey_11_is_ill_formed : (Instr.addRoundKey 11).wellFormed = false := by decide
theorem test_encRound_12_is_ill_formed : (Instr.encRound 12).wellFormed = false := by decide
theorem test_decRound_15_is_ill_formed : (Instr.decRound 15).wellFormed = false := by decide
theorem test_decRound_10_is_well_formed : (Instr.decRound 10).wellFormed = true := by decide
theorem test_encrypt_15_is_well_formed : (Instr.encrypt 15).wellFormed = true := by decide

/-! ### Decoding: CMD in bits 3:0, IDX in bits 11:8 (R91, R93) -/

theorem test_decode_nop :
    decode 0b0000_0000_0000_0000_0000_0000_0000_0000 = .ok .nop := rfl
theorem test_decode_keyExpand :
    decode 0b0000_0000_0000_0000_0000_0000_0000_0001 = .ok (.keyExpand 0) := rfl
theorem test_decode_encrypt :
    decode 0b1111_1111_1111_1111_1111_1111_1111_0010 = .ok (.encrypt 15) := rfl
theorem test_decode_decrypt :
    decode 0b0000_0000_0000_0000_0000_0000_0000_0011 = .ok (.decrypt 0) := rfl
theorem test_decode_subBytes :
    decode 0b0000_0000_0000_0000_0000_0000_0000_0100 = .ok (.subBytes 0) := rfl
theorem test_decode_shiftRows :
    decode 0b0000_0000_0000_0000_0000_0000_0000_0101 = .ok (.shiftRows 0) := rfl
theorem test_decode_mixColumns :
    decode 0b0000_0000_0000_0000_0000_0000_0000_0110 = .ok (.mixColumns 0) := rfl
theorem test_decode_addRoundKey :
    decode 0b0000_0000_0000_0000_0000_1010_0000_0111 = .ok (.addRoundKey 10) := rfl
theorem test_decode_invSubBytes :
    decode 0b0000_0000_0000_0000_0000_0000_0000_1000 = .ok (.invSubBytes 0) := rfl
theorem test_decode_invShiftRows :
    decode 0b0000_0000_0000_0000_0000_0000_0000_1001 = .ok (.invShiftRows 0) := rfl
theorem test_decode_invMixColumns :
    decode 0b0000_0000_0000_0000_0000_0000_0000_1010 = .ok (.invMixColumns 0) := rfl
theorem test_decode_encRound :
    decode 0b0000_0000_0000_0000_0000_0101_0000_1011 = .ok (.encRound 5) := rfl
theorem test_decode_decRound :
    decode 0b0000_0000_0000_0000_0000_1111_0000_1100 = .ok (.decRound 15) := rfl
theorem test_decode_reserved :
    decode 0b0000_0000_0000_0000_0000_1010_0000_1110 = .error (.reservedCommand 0xE) := rfl
theorem test_decodeTableWord : decodeTableWord 32 0x0000050B = some (.encRound 5) := rfl

/-! ### One step of each command (95_test_vectors.md V1, V3, V16 to V22) -/

/-- Right after reset too (V27). -/
theorem test_nop_step : nextOf (step (State.reset.withFetchWord 32 0)) = some State.reset := by
  decide +kernel

/-- V3. -/
theorem test_keyExpand_step :
    (nextOf (step ({ ready 0 with key := katKey }.withFetchWord 32 0x00000001))).map
      (fun t => (t.rk[10], t.keyValid)) =
      some (Block.ofHex 0x09630b137728b09b6f1fadae2e565ee8, true) := by decide +kernel

/-- V1. -/
theorem test_encrypt_step :
    stateAfter 0x00000002 (keyed 0x63727970746f7b4d594145533132387d) =
      some (Block.ofHex 0xd14f146aa42b4fb6a1c40842298f12dd) := by decide +kernel

/-- V1. -/
theorem test_decrypt_step :
    stateAfter 0x00000003 (keyed 0xd14f146aa42b4fb6a1c40842298f12dd) =
      some (Block.ofHex 0x63727970746f7b4d594145533132387d) := by decide +kernel

/-- V21. -/
theorem test_subBytes_step :
    stateAfter 0x00000004 (ready 0x193de3bea0f4e22b9ac68d2ae9f84808) =
      some (Block.ofHex 0xd42711aee0bf98f1b8b45de51e415230) := by decide +kernel

/-- V21. -/
theorem test_shiftRows_step :
    stateAfter 0x00000005 (ready 0xd42711aee0bf98f1b8b45de51e415230) =
      some (Block.ofHex 0xd4bf5d30e0b452aeb84111f11e2798e5) := by decide +kernel

/-- V21. -/
theorem test_mixColumns_step :
    stateAfter 0x00000006 (ready 0xd4bf5d30e0b452aeb84111f11e2798e5) =
      some (Block.ofHex 0x046681e5e0cb199a48f8d37a2806264c) := by decide +kernel

/-- V21, with rk[1] of V20. -/
theorem test_addRoundKey_step :
    stateAfter 0x00000107
      (withRoundKey 0xa0fafe1788542cb123a339392a6c7605 0x046681e5e0cb199a48f8d37a2806264c) =
      some (Block.ofHex 0xa49c7ff2689f352b6b5bea43026a5049) := by decide +kernel

/-- V16. -/
theorem test_invSubBytes_step :
    stateAfter 0x00000008 (ready 0x000102030405060708090a0b0c0d0e0f) =
      some (Block.ofHex 0x52096ad53036a538bf40a39e81f3d7fb) := by decide +kernel

/-- V17. -/
theorem test_invShiftRows_step :
    stateAfter 0x00000009 (ready 0x000102030405060708090a0b0c0d0e0f) =
      some (Block.ofHex 0x000d0a0704010e0b0805020f0c090603) := by decide +kernel

/-- V18. -/
theorem test_invMixColumns_step :
    stateAfter 0x0000000A (ready 0x000102030405060708090a0b0c0d0e0f) =
      some (Block.ofHex 0x0a0f080d0e0b0c090207000506030401) := by decide +kernel

/-- V21, with rk[1] of V20: a round with MixColumns. -/
theorem test_encRound_1_step :
    stateAfter 0x0000010B
      (withRoundKey 0xa0fafe1788542cb123a339392a6c7605 0x193de3bea0f4e22b9ac68d2ae9f84808) =
      some (Block.ofHex 0xa49c7ff2689f352b6b5bea43026a5049) := by decide +kernel

/-- V21, with rk[10] of V20: the round without MixColumns. -/
theorem test_encRound_10_step :
    stateAfter 0x00000A0B
      (withRoundKey 0xd014f9a8c9ee2589e13f0cc8b6630ca6 0xeb40f21e592e38848ba113e71bc342d2) =
      some (Block.ofHex 0x3925841d02dc09fbdc118597196a0b32) := by decide +kernel

/-- V22, with rk[9] of V20: a round with InvMixColumns. -/
theorem test_decRound_9_step :
    stateAfter 0x0000090C
      (withRoundKey 0xac7766f319fadc2128d12941575c006e 0xe9317db5cb322c723d2e895faf090794) =
      some (Block.ofHex 0x876e46a6f24ce78c4d904ad897ecc395) := by decide +kernel

/-- V22, with rk[0] of V20: the round without InvMixColumns. -/
theorem test_decRound_0_step :
    stateAfter 0x0000000C
      (withRoundKey 0x2b7e151628aed2a6abf7158809cf4f3c 0xd4bf5d30e0b452aeb84111f11e2798e5) =
      some (Block.ofHex 0x3243f6a8885a308d313198a2e0370734) := by decide +kernel

/-! ### Acceptance and errors (V28) -/

theorem test_busy_refuses_a_command :
    afterWrite 0x00 0x00000002 State.reset = some (4, none, false) := by decide +kernel
theorem test_busy_wins_over_illegal :
    afterWrite 0x00 0x0000000D (flying 0) = some (4, some ⟨2, 0⟩, false) := by decide +kernel
theorem test_reserved_command :
    afterWrite 0x00 0x0000000F (ready 0) = some (1, none, false) := by decide +kernel
theorem test_bad_index_wins_over_no_key :
    afterWrite 0x00 0x00000C07 (ready 0) = some (2, none, false) := by decide +kernel
theorem test_index_11_is_bad :
    afterWrite 0x00 0x00000B0B (keyed 0) = some (2, none, false) := by decide +kernel
theorem test_index_10_needs_a_key :
    afterWrite 0x00 0x00000A07 (ready 0) = some (3, none, false) := by decide +kernel
theorem test_encrypt_needs_a_key :
    afterWrite 0x00 0x00000002 (ready 0) = some (3, none, false) := by decide +kernel
theorem test_keyExpand_needs_none :
    afterWrite 0x00 0x00000001 (ready 0) = some (0, some ⟨1, 0⟩, false) := by decide +kernel
theorem test_acceptance_keeps_err :
    afterWrite 0x00 0x00000004 { ready 0 with err := 3, done := true } =
      some (3, some ⟨4, 0⟩, false) := by decide +kernel
theorem test_busy_refuses_a_key_write :
    afterWrite 0x0A 0x12345678 (flying 0) = some (5, some ⟨2, 0⟩, false) := by decide +kernel
theorem test_busy_clears_done :
    afterWrite 0x01 0x00000002 { State.reset with done := true } = some (0, none, false) := by
  decide +kernel
theorem test_clrerr : afterWrite 0x01 0x00000100 { ready 0 with err := 1, done := true } =
    some (0, none, true) := by decide +kernel

/-! ### The bus (V10 to V12, V28, V29, R291) -/

theorem test_gfmul_port :
    readAfterWrite 0x05 0xFFFF8357 0x05 State.reset = some 0x00c18357 := by decide +kernel
theorem test_sboxq_port :
    readAfterWrite 0x04 0xFFFFFF63 0x04 (ready 0) = some 0xd300fb63 := by decide +kernel
theorem test_sboxq_port_before_genDone :
    readAfterWrite 0x04 0x00000053 0x04 State.reset = some 0x00000053 := by decide +kernel
theorem test_status_in_flight : busRead 0x01 (flying 0) = 0x0000000D := by decide +kernel
theorem test_status_no_key : busRead 0x01 { ready 0 with err := 3 } = 0x00000038 := by
  decide +kernel
theorem test_status_done : busRead 0x01 { keyed 0 with done := true } = 0x0000000E := by
  decide +kernel
theorem test_state_word_order :
    busRead 0x0D (ready 0x63727970746f7b4d594145533132387d) = 0x746f7b4d := by decide +kernel
theorem test_rk4 : busRead 0x14 (keyed 0) = 0x8c971643 := by decide +kernel
theorem test_rk43 : busRead 0x3B (keyed 0) = 0x2e565ee8 := by decide +kernel
theorem test_busy_hides_state :
    busRead 0x0C (flying 0x63727970746f7b4d594145533132387d) = 0 := by decide +kernel
theorem test_key_write_row :
    readAfterWrite 0x0A 0x12345678 0x0A (ready 0) = some 0x12345678 := by decide +kernel
theorem test_irq_done : State.irq { ready 0 with ieDone := true, done := true } = true := by
  decide +kernel
theorem test_irq_err_masked : State.irq { ready 0 with ieDone := true, err := 1 } = false := by
  decide +kernel
theorem test_reset_step :
    nextOf (step { flying 5 with events := [.reset], err := 4 }) = some State.reset := by
  decide +kernel
theorem test_genDone_step :
    nextOf (step State.reset) = some { State.reset with sboxReady := true } := by decide +kernel
theorem test_script_wrblk :
    (ScriptLine.wrblkState (Block.ofHex 0x63727970746f7b4d594145533132387d)).accesses =
      [.write 0x0C 0x63727970, .write 0x0D 0x746f7b4d, .write 0x0E 0x59414553,
       .write 0x0F 0x3132387d] := by decide +kernel
theorem test_script_cmd : (ScriptLine.cmd (.encRound 10)).accesses = [.write 0x00 0x00000A0B] := by
  decide +kernel
theorem test_script_rdblk :
    (ScriptLine.rdblkRk 10).accesses = [.read 0x38, .read 0x39, .read 0x3A, .read 0x3B] := by
  decide +kernel

/-! ### The tables (V11, V13) -/

theorem test_sbox_tables :
    sbox 0x53 = 0xed ∧ invSbox 0x53 = 0x50 ∧ ginv 0x53 = 0xca ∧ sbox 0x00 = 0x63 ∧
    invSbox 0x63 = 0x00 ∧ sbox 0xff = 0x16 ∧ invSbox 0xff = 0x7d ∧ ginv 0xff = 0x1c := by
  decide +kernel
theorem test_walk : walk 8 = (0x1a, 0xfd) ∧ walk 254 = (0xf6, 0x03) := by decide +kernel

/-! ### The hypotheses of the obligations can be met -/

/-- `s` with `es` as the events to come. -/
def coming (es : List Event) (s : State) : State := { s with events := es }

/-- A host write of `v` to CTRL. -/
def ctrl (v : Word) : Event := .host (.write 0x00 v)

theorem keyed_inv (b : BitVec 128) : (keyed b).Inv where
  phasePresented := rfl
  errCode := by show 0 ≤ 5; decide
  flightReady := fun h => absurd rfl h
  flightAccepted := fun _ h => nomatch h
  startUp := fun h => nomatch h
  noKey := fun h => nomatch h
  schedule := fun _ => by
    show keyExpansion katKey = keyExpansion (keyExpansion katKey)[0]
    rw [show (keyExpansion katKey)[0] = katKey by simp [keyExpansion, roundKey]]

theorem ready_inv (b : BitVec 128) : (ready b).Inv where
  phasePresented := rfl
  errCode := by show 0 ≤ 5; decide
  flightReady := fun h => absurd rfl h
  flightAccepted := fun _ h => nomatch h
  startUp := fun h => nomatch h
  noKey := fun _ => rfl
  schedule := fun h => nomatch h

theorem flying_inv (b : BitVec 128) : (flying b).Inv where
  phasePresented := rfl
  errCode := by show 0 ≤ 5; decide
  flightReady := fun _ => ⟨rfl, rfl⟩
  flightAccepted := fun c h => by cases h; exact ⟨by decide, by decide, fun _ => rfl⟩
  startUp := fun h => nomatch h
  noKey := fun h => nomatch h
  schedule := (keyed_inv b).schedule

theorem reset_coming_inv (es : List Event) : (coming es State.reset).Inv where
  phasePresented := rfl
  errCode := by show 0 ≤ 5; decide
  flightReady := fun h => absurd rfl h
  flightAccepted := fun _ h => nomatch h
  startUp := fun _ => ⟨rfl, rfl, rfl, rfl⟩
  noKey := fun _ => rfl
  schedule := fun h => nomatch h

theorem witness_EncodeInvertsDecode :
    decode 0x12345A37 = .ok (.addRoundKey 10) ∧ decode 0xFFFFF0F0 = .ok .nop := ⟨rfl, rfl⟩

theorem witness_ReservedCommandsAreRefused :
    (0x0000000D : Word).extractLsb' 0 4 = 0xD ∧ (0x00000A0E : Word).extractLsb' 0 4 = 0xE ∧
    (0x0000000F : Word).extractLsb' 0 4 = 0xF ∧
    ∃ s : State, s.rstN = true ∧ s.phase = .presented ∧ s.events = [ctrl 0x0000000D] ∧
      s.busy = false :=
  ⟨rfl, rfl, rfl, coming [ctrl 0x0000000D] (ready 0), rfl, rfl, rfl, rfl⟩

theorem witness_CtrlWriteRunsTheDecodedCommand :
    ∃ s : State, s.rstN = true ∧ s.events = [ctrl 0x0000050B] ∧
      decode 0x0000050B = .ok (.encRound 5) :=
  ⟨coming [ctrl 0x0000050B] (keyed 0), rfl, rfl, rfl⟩

theorem witness_CmdDoneRunsTheCommandInFlight :
    ∃ s : State, s.rstN = true ∧ s.sboxReady = true ∧ s.inflight = some ⟨0x2, 0⟩ ∧
      decodeFields 0x2 0 = .ok (.encrypt 0) ∧ Instr.encrypt 0 ≠ .nop ∧
      s.events = [] ∧ (coming [.core] s).events = [.core] :=
  ⟨flying 0, rfl, rfl, rfl, rfl, by decide, rfl, rfl⟩

theorem witness_PlacedWordRunsItsCommand :
    Instr.decRound 10 ≠ .nop ∧ (Instr.decRound 10).wellFormed = true ∧
    (keyed 0).keyValid = true ∧ State.reset.keyValid = false := ⟨by decide, rfl, rfl, rfl⟩

/-- One state and word for each clause of R98, with the index at 10 and at 11. -/
theorem witness_CtrlWriteFollowsAcceptance :
    ((ready 0).rstN = true ∧ (ready 0).phase = .presented) ∧
    (0xFFFFF0F0 : Word).extractLsb' 0 4 = 0x0 ∧
    (State.reset.sboxReady = false ∧ (flying 0).inflight ≠ none) ∧
    ((ready 0).busy = false ∧ (0x0000000F : Word).extractLsb' 0 4 = 0xF) ∧
    ((0x00000B07 : Word).extractLsb' 0 4 = 0x7 ∧
      ((0x00000B07 : Word).extractLsb' 8 4).toNat = 11) ∧
    ((0x00000A07 : Word).extractLsb' 0 4 = 0x7 ∧
      ((0x00000A07 : Word).extractLsb' 8 4).toNat = 10 ∧ (ready 0).keyValid = false) ∧
    ((0x0000000C : Word).extractLsb' 0 4 = 0xC ∧
      ((0x0000000C : Word).extractLsb' 8 4).toNat = 0 ∧ (keyed 0).keyValid = true ∧
      (keyed 0).busy = false) := by
  refine ⟨⟨rfl, rfl⟩, rfl, ⟨rfl, nofun⟩, ⟨rfl, rfl⟩, ⟨rfl, rfl⟩, ⟨rfl, rfl, rfl⟩, rfl, rfl, rfl, rfl⟩

theorem witness_PresentedCommandsAreAcceptedOrRefused :
    (ready 0).phase = .presented ∧ State.reset.sboxReady = false ∧ (ready 0).busy = false ∧
    (Instr.encRound 11).wellFormed = false ∧ (Instr.encRound 10).wellFormed = true ∧
    isKeyed (Instr.encRound 10).code = true ∧ (ready 0).keyValid = false ∧
    (keyed 0).keyValid = true ∧ isKeyed (Instr.subBytes 15).code = false := by
  refine ⟨rfl, rfl, rfl, rfl, rfl, rfl, rfl, rfl, rfl⟩

/-- For StateCommandsComplete, BlockCommandsComplete, IndexedCommandsComplete and
KeyExpandCompletes. -/
theorem witness_completing : ∃ s : State, s.phase = .completing := ⟨(flying 0).withPhase .completing, rfl⟩

theorem witness_IndexAboveTenStops :
    (11 : Nibble).toNat > 10 ∧ (15 : Nibble).toNat > 10 ∧ ¬(10 : Nibble).toNat > 10 := by decide

/-- A presented and a completing command that go on, and the offsets at the ends of the frame. -/
theorem witness_ExecFrame :
    (∃ t, exec (.encRound 10) (ready 0) = .next t) ∧
    (∃ t, exec (.encRound 10) ((keyed 0).withPhase .completing) = .next t) ∧
    (∃ t, exec (.keyExpand 0) ((ready 0).withPhase .completing) = .next t) ∧
    (Instr.keyExpand 0).code = 0x1 ∧ (Instr.encRound 10).code ≠ 0x1 ∧
    ((0x0B : Offset) ≠ 0x01 ∧ (0x0B : Offset).toNat < 0x0C) ∧
    ((0x3C : Offset) ≠ 0x01 ∧ (0x3C : Offset).toNat ≥ 0x3C) :=
  ⟨⟨_, rfl⟩, ⟨_, rfl⟩, ⟨_, rfl⟩, rfl, by decide, by decide, by decide⟩

theorem witness_GinvIsTheUniqueInverse :
    (0x53 : Byte) ≠ 0 ∧ gmul 0x53 0xCA = 0x01 := by decide +kernel

theorem witness_GeneratorWalk : (1 ≤ 1 ∧ 1 ≤ 255) ∧ (1 ≤ 255 ∧ 255 ≤ 255) ∧
    (walk 254).1 = 0xF6 ∧ (0xF6 : Byte) ≠ 0 := by decide +kernel

theorem witness_QueryPortsAnswer :
    State.reset.sboxReady = false ∧ (ready 0).sboxReady = true ∧
    (∃ t, busWrite 0x04 0x53 (ready 0) = .next t) ∧
    ∃ t, busWrite 0x05 0x00008357 (ready 0) = .next t := ⟨rfl, rfl, ⟨_, rfl⟩, ⟨_, rfl⟩⟩

/-- For KeyScheduleRecurrence, RoundConstants and RoundsByIndex: both ends of each range. -/
theorem witness_index_ranges : (1 ≤ 1 ∧ 1 ≤ 10) ∧ (1 ≤ 10 ∧ 10 ≤ 10) ∧ 0 < 9 ∧ 8 < 9 ∧
    1 ≤ (1 : RoundIndex).val ∧ (9 : RoundIndex).val ≤ 9 := by decide

/-- For CipherIsElevenEncRounds and EncryptThenDecryptRestoresState. -/
theorem witness_idle_with_a_schedule :
    ∃ s : State, s.rstN = true ∧ s.phase = .presented ∧ s.sboxReady = true ∧
      s.inflight = none ∧ s.keyValid = true := ⟨keyed 0, rfl, rfl, rfl, rfl, rfl⟩

/-- For BusReadTable and ReadStepChangesNothing. -/
theorem witness_BusReadTable :
    (0x3C : Offset).toNat ≥ 0x3C ∧ (0x3F : Offset).toNat ≥ 0x3C ∧ ¬(0x3B : Offset).toNat ≥ 0x3C ∧
    (coming [.host (.read 0x3B)] (keyed 0)).rstN = true ∧
    (coming [.host (.read 0x3B)] (keyed 0)).events = [.host (.read 0x3B)] := by
  refine ⟨by decide, by decide, by decide, rfl, rfl⟩

theorem witness_BusWriteTable :
    (ready 0).phase = .presented ∧ (0x10 : Offset).toNat ≥ 0x10 ∧ ¬(0x0F : Offset).toNat ≥ 0x10 ∧
    (ready 0).busy = false ∧ (flying 0).busy = true := by
  refine ⟨rfl, by decide, by decide, rfl, rfl⟩

theorem witness_WordPacking : (0 : Fin 4) ≠ 3 := by decide

theorem witness_WrittenWordsReadBack :
    (ready 0).busy = false ∧ (0x0C : Offset) ≠ BitVec.ofNat 6 (0x08 + (3 : Fin 8).val) := by
  refine ⟨rfl, by decide⟩

theorem witness_RepeatedWritesAreIdempotent : (0x01 : Offset) ≠ 0x00 := by decide

theorem witness_BusyHidesStateAndSchedule :
    State.reset.busy = true ∧ (flying 0).busy = true := ⟨rfl, rfl⟩

theorem witness_ResetRule :
    (coming [.reset] (flying 0)).events = [.reset] ∧
    (coming [.resetLow] (flying 0)).events = [.resetLow] ∧
    ∃ s : State, s.rstN = false ∧ s.events = [.host (.write 0x00 2), .host (.read 0x03)] :=
  ⟨rfl, rfl, (coming [.host (.write 0x00 2), .host (.read 0x03)] (keyed 0)).holdReset, rfl, rfl⟩

theorem witness_RegisterValuesAfterReset :
    (0x08 : Offset).toNat ≥ 0x08 ∧ (0x3F : Offset).toNat ≥ 0x08 := by decide

theorem witness_GenDoneEndsStartUp :
    State.reset.rstN = true ∧ State.reset.sboxReady = false ∧ State.reset.events = [] ∧
    (coming [.core] State.reset).events = [.core] := ⟨rfl, rfl, rfl, rfl⟩

/-- For the rules about all steps: a step of every kind that goes on. -/
theorem witness_steps :
    (∃ s t, step s = .next t ∧ stepKind s = .cmdDone ⟨0x2, 0⟩) ∧
    (∃ s t, step s = .next t ∧ stepKind s = .cmdDone ⟨0x1, 0⟩) ∧
    (∃ s t, step s = .next t ∧ stepKind s = .genDone) ∧
    (∃ s t, step s = .next t ∧ stepKind s = .reset) ∧
    (∃ s t, step s = .next t ∧ stepKind s = .hostWrite 0x00 0x00000004 ∧ s.inflight = none ∧
      t.inflight ≠ none) ∧
    (∃ s t, step s = .next t ∧ stepKind s = .hostWrite 0x00 0x0000000D ∧
      t.inflight = s.inflight ∧ cmdField 0x0000000D ≠ 0) ∧
    (∃ s t, step s = .next t ∧ stepKind s = .hostWrite 0x01 0x00000102 ∧
      (0x00000102 : Word).getLsbD 1 = true ∧ (0x00000102 : Word).getLsbD 8 = true ∧
      s.err ≠ 0 ∧ t.err = 0) ∧
    (∃ s t, step s = .next t ∧ stepKind s = .hostWrite 0x0F 5 ∧ s.busy = true) ∧
    (∃ s t, step s = .next t ∧ stepKind s = .hostWrite 0x08 5 ∧ s.busy = false ∧
      t.key ≠ s.key) ∧
    (∃ s t, step s = .next t ∧ stepKind s = .nothing) := by
  refine ⟨⟨flying 0, _, rfl, rfl⟩, ⟨{ ready 0 with inflight := some ⟨0x1, 0⟩ }, _, rfl, rfl⟩,
    ⟨State.reset, _, rfl, rfl⟩, ⟨coming [.reset] (flying 0), _, rfl, rfl⟩,
    ⟨coming [ctrl 4] (ready 0), _, rfl, rfl, rfl, nofun⟩,
    ⟨coming [ctrl 0xD] (ready 0), _, rfl, rfl, rfl, by decide⟩,
    ⟨coming [.host (.write 0x01 0x102)] { ready 0 with err := 3 }, _, rfl, rfl, rfl, rfl, by decide,
      rfl⟩,
    ⟨coming [.host (.write 0x0F 5)] State.reset, _, rfl, rfl, rfl⟩,
    ⟨coming [.host (.write 0x08 5)] (ready 0), _, rfl, rfl, rfl, by decide⟩,
    ⟨coming [.core] (ready 0), _, rfl, rfl⟩⟩

theorem witness_KeyValidRule :
    ((keyed 0).Inv ∧ (keyed 0).keyValid = true) ∧ (ready 0).busy = false ∧
    (ready 0).phase = .presented ∧ (ready 0).keyValid = false :=
  ⟨⟨keyed_inv 0, rfl⟩, rfl, rfl, rfl⟩

theorem witness_SboxReadyRule :
    State.reset.sboxReady = false ∧ State.reset.phase = .presented ∧
    (0x0000000D : Word).extractLsb' 0 4 ≠ 0 := ⟨rfl, rfl, by decide⟩

/-- For EveryStepKeepsTheInvariant and InvariantStatesNeverStop. -/
theorem witness_invariant_steps :
    (flying 0).Inv ∧ (ready 0).Inv ∧ (∃ t, step (flying 0) = .next t) :=
  ⟨flying_inv 0, ready_inv 0, _, rfl⟩

theorem witness_IrqRule : (ready 0).irq = (keyed 5).irq := rfl

theorem witness_HostCannotDisturbTheCommandInFlight :
    (flying 0).Inv ∧ (flying 0).rstN = true ∧ (flying 0).inflight ≠ none :=
  ⟨flying_inv 0, rfl, nofun⟩

theorem witness_CoreStepEndsTheWait :
    ((flying 0).Inv ∧ (flying 0).rstN = true ∧ (flying 0).busy = true) ∧
    ((coming [] State.reset).Inv ∧ State.reset.rstN = true ∧ State.reset.busy = true) :=
  ⟨⟨flying_inv 0, rfl, rfl⟩, reset_coming_inv [], rfl, rfl⟩

end Sys2Proof.Tests
end

section
/-! SUPPORT. The Core's step ends every wait: CMD_DONE goes on at every pair that acceptance lets
through (30_encoding.md R101), and after it, as after GEN_DONE, nothing keeps the hardware busy. -/

namespace Sys2Proof.Machine.Laws

/-- An indexed command with a legal index (30_encoding.md R92) goes on in either phase. -/
theorem runIndexed_total {idx : Nibble} (h : idx.toNat ≤ 10) (cmd : Nibble)
    (effect : RoundIndex → State → State) (s : State) :
    ∃ t, runIndexed cmd idx effect s = .next t := by
  unfold runIndexed
  rw [roundIndex_of_legal h]
  split <;> exact ⟨_, rfl⟩

/-- A command goes on in either phase, if its index is legal where it is indexed. -/
theorem exec_total {i : Instr} (hx : isIndexed i.code = true → i.index.toNat ≤ 10) (s : State) :
    ∃ t, exec i s = .next t := by
  rcases exec_shape i with rfl | ⟨-, h⟩ | ⟨-, f, h⟩ | ⟨-, hi, f, h⟩
  · exact ⟨s, rfl⟩
  · rw [h]; exact runCommand_total _ _ _ s
  · rw [h]; exact runCommand_total _ _ _ s
  · rw [h]; exact runIndexed_total (hx hi) _ _ s

/-- The CMD values 0x1..0xC are not the reserved ones (30_encoding.md R94). -/
theorem not_isReserved_of_le : ∀ {cmd : Nibble}, cmd.toNat ≤ 0xC → isReserved cmd = false := by
  decide

/-- The fields of a pair that acceptance lets through are those of a command other than NOP. -/
theorem decodeFields_acceptable {c : InFlight} {kv : Bool} (h : acceptable c kv) :
    ∃ i, decodeFields c.cmd c.idx = .ok i ∧ i ≠ .nop ∧ i.code = c.cmd ∧ i.index = c.idx := by
  obtain ⟨⟨hlo, hhi⟩, -, -⟩ := h
  cases hd : decodeFields c.cmd c.idx with
  | error e =>
    have hres := (decodeFields_error_iff c.cmd c.idx).1 ⟨e, hd⟩
    rw [not_isReserved_of_le hhi] at hres
    cases hres
  | ok i =>
    obtain ⟨hc, hi⟩ := decodeFields_ok hd
    have hn : i ≠ .nop := by
      rintro rfl
      rw [← hc] at hlo
      exact absurd hlo (by decide)
    exact ⟨i, rfl, hn, hc, hi.resolve_left hn⟩

/-- CMD_DONE goes on at every pair that acceptance lets through (60_exceptions.md R265). -/
theorem cmdDone_total {c : InFlight} {kv : Bool} (h : acceptable c kv) (s : State) :
    ∃ t, cmdDone c s = .next t := by
  obtain ⟨i, hd, hn, hc, hi⟩ := decodeFields_acceptable h
  have hx : isIndexed i.code = true → i.index.toNat ≤ 10 := by
    obtain ⟨-, hidx, -⟩ := h
    rw [hc, hi]
    exact hidx
  unfold cmdDone
  rw [hd]
  cases i
  case nop => exact absurd rfl hn
  all_goals exact exec_total hx _

/-- CMD_DONE leaves nothing in flight (30_encoding.md R101) and the S-box as ready as it was. -/
theorem cmdDone_ends {c : InFlight} {s t : State} (h : cmdDone c s = .next t) :
    t.inflight = none ∧ t.sboxReady = s.sboxReady := by
  obtain ⟨ht, -⟩ := cmdDone_next h
  rw [ht]
  exact ⟨rfl, rfl⟩

/-- The invariant says nothing of the events still to come (log entry 1). -/
theorem inv_withEvents {s : State} (h : s.Inv) (es : List Event) : (s.withEvents es).Inv :=
  { h with }

/-- With the Core's event first, the machine takes the Core's step. -/
theorem step_core_event (s : State) (rest : List Event) :
    step (s.withEvents (.core :: rest)) = coreStep (s.withEvents rest) := rfl

/-- With no event left, the machine takes the Core's step. -/
theorem step_no_event (s : State) : step (s.withEvents []) = coreStep (s.withEvents []) := rfl

/-- From a busy state that meets the invariant, with `rst_n` high, the Core's step goes on and
nothing keeps the hardware busy after it. -/
theorem coreStep_ends_wait {s : State} (hinv : s.Inv) (hrst : s.rstN = true)
    (hbusy : s.busy = true) : ∃ t, coreStep s = .next t ∧ t.busy = false := by
  rcases coreKind_cases s with ⟨-, -, hidle⟩ | ⟨-, hs, -, hready⟩ | ⟨c, -, hs, -, hready, hfl⟩
  · rcases hidle with hlow | hidle
    · rw [hrst] at hlow; cases hlow
    · rw [(not_busy_iff s).2 hidle] at hbusy; cases hbusy
  · have hnone : s.inflight = none := by
      by_contra hfl
      have hr := (hinv.flightReady hfl).1
      rw [hready] at hr
      cases hr
    exact ⟨s.genDone, hs, (not_busy_iff _).2 ⟨rfl, hnone⟩⟩
  · obtain ⟨t, ht⟩ := cmdDone_total (hinv.flightAccepted c hfl) s
    obtain ⟨hnone, hkeep⟩ := cmdDone_ends ht
    exact ⟨t, hs.trans ht, (not_busy_iff _).2 ⟨hkeep.trans hready, hnone⟩⟩

/-- Settles O56: both steps are the Core's, from a state that differs in its events only. -/
theorem coreStepEndsTheWait : Obligations.CoreStepEndsTheWait := by
  intro s rest hinv hrst hbusy
  have hcore : ∀ es, ∃ t, coreStep (s.withEvents es) = .next t ∧ t.busy = false := fun es =>
    coreStep_ends_wait (inv_withEvents hinv es) hrst hbusy
  constructor
  · obtain ⟨t, ht, hidle⟩ := hcore rest
    exact ⟨t, (step_core_event s rest).trans ht, hidle⟩
  · obtain ⟨t, ht, hidle⟩ := hcore []
    exact ⟨t, (step_no_event s).trans ht, hidle⟩

end Sys2Proof.Machine.Laws
end

section
/-! SUPPORT. The state elements and their writers (10_state.md R31 to R39): what each kind of step
leaves, derived from `step_next`, with the offsets of the registers written and the effect of the
command completed. -/

namespace Sys2Proof.Machine.Laws

/-! `Accept` writes `err`, `inflight` and `done` only (30_encoding.md R98). -/
section Accept
variable (cmd idx : Nibble) (s : State)

@[simp] theorem accept_key : (accept cmd idx s).key = s.key := by rw [accept_frame]
@[simp] theorem accept_state : (accept cmd idx s).state = s.state := by rw [accept_frame]
@[simp] theorem accept_rk : (accept cmd idx s).rk = s.rk := by rw [accept_frame]
@[simp] theorem accept_keyValid : (accept cmd idx s).keyValid = s.keyValid := by rw [accept_frame]
@[simp] theorem accept_sboxReady : (accept cmd idx s).sboxReady = s.sboxReady := by rw [accept_frame]
@[simp] theorem accept_ieDone : (accept cmd idx s).ieDone = s.ieDone := by rw [accept_frame]
@[simp] theorem accept_ieErr : (accept cmd idx s).ieErr = s.ieErr := by rw [accept_frame]
@[simp] theorem accept_sqX : (accept cmd idx s).sqX = s.sqX := by rw [accept_frame]
@[simp] theorem accept_gfA : (accept cmd idx s).gfA = s.gfA := by rw [accept_frame]
@[simp] theorem accept_gfB : (accept cmd idx s).gfB = s.gfB := by rw [accept_frame]
@[simp] theorem accept_rstN : (accept cmd idx s).rstN = s.rstN := by rw [accept_frame]
@[simp] theorem accept_rdata : (accept cmd idx s).rdata = s.rdata := by rw [accept_frame]
@[simp] theorem accept_events : (accept cmd idx s).events = s.events := by rw [accept_frame]

end Accept

/-- BUSY does not depend on the events still to come (10_state.md R25). -/
@[simp] theorem busy_withEvents (s : State) (es : List Event) : (s.withEvents es).busy = s.busy :=
  busy_congr (withEvents_sboxReady s es) (withEvents_inflight s es)

/-- Every command but NOP is refused with BUSY while busy (30_encoding.md R98). -/
theorem accept_busy {cmd : Nibble} {s : State} (h0 : cmd ≠ 0) (hb : s.busy = true)
    (idx : Nibble) : accept cmd idx s = s.raiseError errBusy := by
  rw [accept, if_neg h0, if_pos hb]

/-- No keyed command is a reserved one (30_encoding.md R94, R96). -/
theorem not_isReserved_of_isKeyed :
    ∀ {cmd : Nibble}, isKeyed cmd = true → isReserved cmd = false := by
  decide

/-- A keyed command with a legal index is refused with NO_KEY while idle without a schedule
(30_encoding.md R98, the last check). -/
theorem accept_noKey {cmd idx : Nibble} {s : State} (hb : s.busy = false)
    (hk : isKeyed cmd = true) (hx : isIndexed cmd = true → idx.toNat ≤ 10)
    (hv : s.keyValid = false) : accept cmd idx s = s.raiseError errNoKey := by
  have h0 : cmd ≠ 0 := by rintro rfl; exact absurd hk (by decide)
  have hi : (isIndexed cmd && decide (idx.toNat > 10)) = false := by
    rw [Bool.eq_false_iff]; simpa using hx
  rw [accept, if_neg h0]
  simp [hb, not_isReserved_of_isKeyed hk, hi, hk, hv]

/-- Everything a command can do in either phase: nothing, `Accept`, or its effect on the schedule
(KEY_EXPAND) or on STATE (every other) and the end of CMD_DONE. -/
theorem exec_next {i : Instr} {s t : State} (h : exec i s = .next t) :
    (i = .nop ∧ t = s) ∨
    (s.phase = .presented ∧ t = accept i.code i.index s) ∨
    (s.phase = .completing ∧ i.code = 1#4 ∧ t = (s.putSchedule (keyExpansion s.key)).finish) ∨
    (s.phase = .completing ∧ i.code ≠ 1#4 ∧ ∃ b, t = (s.putState b).finish) := by
  rcases exec_shape i with rfl | ⟨hc, he⟩ | ⟨hc, f, he⟩ | ⟨hc, -, f, he⟩
  · cases h; exact .inl ⟨rfl, rfl⟩
  · rcases runCommand_next ((he s).symm.trans h) with hacc | ⟨hp, ht⟩
    · exact .inr (.inl hacc)
    · exact .inr (.inr (.inl ⟨hp, hc, ht⟩))
  · rcases runCommand_next ((he s).symm.trans h) with hacc | ⟨hp, ht⟩
    · exact .inr (.inl hacc)
    · exact .inr (.inr (.inr ⟨hp, hc, _, ht⟩))
  · rcases runIndexed_next ((he s).symm.trans h) with hacc | ⟨hp, n, -, ht⟩
    · exact .inr (.inl hacc)
    · exact .inr (.inr (.inr ⟨hp, hc, _, ht⟩))

/-- What no command writes, in either phase (10_state.md R39). -/
theorem exec_keeps {i : Instr} {s t : State} (h : exec i s = .next t) :
    t.key = s.key ∧ t.sboxReady = s.sboxReady ∧ t.ieDone = s.ieDone ∧ t.ieErr = s.ieErr ∧
    t.sqX = s.sqX ∧ t.gfA = s.gfA ∧ t.gfB = s.gfB ∧ t.rstN = s.rstN ∧ t.rdata = s.rdata ∧
    t.events = s.events := by
  rcases exec_next h with ⟨-, rfl⟩ | ⟨-, rfl⟩ | ⟨-, -, rfl⟩ | ⟨-, -, b, rfl⟩ <;> simp

/-- Everything CMD_DONE can do: the effect of KEY_EXPAND or of a command on STATE, and the end of the
command (30_encoding.md R101, 10_state.md R39). -/
theorem cmdDone_cases {c : InFlight} {s t : State} (h : cmdDone c s = .next t) :
    (c.cmd = 1#4 ∧ t = (s.putSchedule (keyExpansion s.key)).finish) ∨
    (c.cmd ≠ 1#4 ∧ ∃ b, t = (s.putState b).finish) := by
  obtain ⟨ht, ⟨hc, hst, hrk, hkv⟩ | ⟨hc, hrk, hkv⟩⟩ := cmdDone_next h
  · refine .inl ⟨hc, ?_⟩
    rw [ht, hst, hrk, hkv]
    rfl
  · refine .inr ⟨hc, t.state, ?_⟩
    rw [ht, hrk, hkv]
    rfl

/-- Everything a write at an offset other than CTRL's can do, with the offsets it does it at
(20_memory.md R61, R67). -/
theorem writeRegister_at {off : Offset} (h0 : off ≠ 0) (v : Word) (s : State) :
    (off ≠ 1 ∧ (off.toNat < 0x08 ∨ 0x10 ≤ off.toNat) ∧
      writeRegister (Reg.ofOffset off) v s = s) ∨
    (off = 1 ∧ writeRegister (Reg.ofOffset off) v s = s.writeStatus v) ∨
    (off = 2 ∧ writeRegister (Reg.ofOffset off) v s = s.setCfg v) ∨
    (off = 4 ∧ writeRegister (Reg.ofOffset off) v s = s.setSboxq v) ∨
    (off = 5 ∧ writeRegister (Reg.ofOffset off) v s = s.setGfmul v) ∨
    (0x08 ≤ off.toNat ∧ off.toNat ≤ 0x0F ∧ s.busy = true ∧
      writeRegister (Reg.ofOffset off) v s = s.raiseError errWrBusy) ∨
    (0x08 ≤ off.toNat ∧ off.toNat ≤ 0x0B ∧ s.busy = false ∧
      ∃ k, writeRegister (Reg.ofOffset off) v s = s.setKeyWord k v) ∨
    (0x0C ≤ off.toNat ∧ off.toNat ≤ 0x0F ∧ s.busy = false ∧
      ∃ k, writeRegister (Reg.ofOffset off) v s = s.setStateWord k v) := by
  have hat := ofOffset_standsAt off
  have hctrl := ofOffset_ne_ctrl h0
  cases hr : Reg.ofOffset off <;> rw [hr] at hat hctrl <;>
    simp only [standsAt, decide_eq_true_eq] at hat
  case ctrl => exact absurd rfl hctrl
  case status => exact .inr (.inl ⟨BitVec.eq_of_toNat_eq hat, rfl⟩)
  case cfg => exact .inr (.inr (.inl ⟨BitVec.eq_of_toNat_eq hat, rfl⟩))
  case sboxq => exact .inr (.inr (.inr (.inl ⟨BitVec.eq_of_toNat_eq hat, rfl⟩)))
  case gfmul => exact .inr (.inr (.inr (.inr (.inl ⟨BitVec.eq_of_toNat_eq hat, rfl⟩))))
  case key k =>
    cases hb : s.busy
    · exact .inr (.inr (.inr (.inr (.inr (.inr (.inl
        ⟨by omega, by omega, rfl, k, by simp [writeRegister, hb]⟩))))))
    · exact .inr (.inr (.inr (.inr (.inr (.inl
        ⟨by omega, by omega, rfl, by simp [writeRegister, hb]⟩)))))
  case state k =>
    cases hb : s.busy
    · exact .inr (.inr (.inr (.inr (.inr (.inr (.inr
        ⟨by omega, by omega, rfl, k, by simp [writeRegister, hb]⟩))))))
    · exact .inr (.inr (.inr (.inr (.inr (.inl
        ⟨by omega, by omega, rfl, by simp [writeRegister, hb]⟩)))))
  all_goals
    have h1 : off.toNat ≠ 1 := by omega
    exact .inl ⟨fun h => h1 (congrArg BitVec.toNat h), by omega, rfl⟩

/-- A write to KEY or STATE while busy is refused with WR_BUSY (20_memory.md R67). -/
theorem writeRegister_data_busy {off : Offset} (hlo : 0x08 ≤ off.toNat) (hhi : off.toNat ≤ 0x0F)
    {s : State} (hb : s.busy = true) (v : Word) :
    writeRegister (Reg.ofOffset off) v s = s.raiseError errWrBusy := by
  have hat := ofOffset_standsAt off
  cases hr : Reg.ofOffset off <;> rw [hr] at hat <;>
    simp only [standsAt, decide_eq_true_eq] at hat
  case key k => simp [writeRegister, hb]
  case state k => simp [writeRegister, hb]
  all_goals omega

/-- The codes 1 to 4, which a refused command leaves (60_exceptions.md R262). -/
theorem errorCode_of_range : ∀ e : BitVec 3, 1 ≤ e.toNat → e.toNat ≤ 4 →
    e ≠ 0 ∧ (e = 1 ∨ e = 2 ∨ e = 3 ∨ e = 4) := by
  decide

/-- What a read depends on at every offset outside STATUS, STATE and RK (20_memory.md R61, R66). -/
theorem busRead_congr {off : Offset} {s t : State} (hst : off ≠ 0x01)
    (hoff : off.toNat < 0x0C ∨ off.toNat ≥ 0x3C) (hk : t.key = s.key)
    (hr : t.sboxReady = s.sboxReady) (hd : t.ieDone = s.ieDone) (he : t.ieErr = s.ieErr)
    (hx : t.sqX = s.sqX) (ha : t.gfA = s.gfA) (hb : t.gfB = s.gfB) :
    busRead off t = busRead off s := by
  have hat := ofOffset_standsAt off
  refine readRegister_congr hk hr hd he hx ha hb ?_ ?_ ?_
  · intro h
    rw [h] at hat
    exact hst (BitVec.eq_of_toNat_eq (by simpa [standsAt] using hat))
  · intro k h
    simp only [h, standsAt, decide_eq_true_eq] at hat
    omega
  · intro i k h
    simp only [h, standsAt, decide_eq_true_eq] at hat
    omega

/-! ### One kind of step -/

section Kinds
variable {s t : State} (h : step s = .next t)
include h

/-- A CTRL write leaves what is in flight and DONE, and refuses unless it is NOP, or it puts its
command in flight, clears DONE and keeps ERR (30_encoding.md R98). -/
theorem step_ctrlWrite {v : Word} (hk : stepKind s = .hostWrite 0x00 v) :
    (t.inflight = s.inflight ∧ t.done = s.done ∧
      (cmdField v = 0 ∧ t.err = s.err ∨
       t.err ≠ 0 ∧ (t.err = 1 ∨ t.err = 2 ∨ t.err = 3 ∨ t.err = 4))) ∨
    (s.inflight = none ∧ t.inflight ≠ none ∧ t.done = false ∧ t.err = s.err) := by
  rw [step_of_kind, hk] at h
  simp only [busWrite_next] at h
  rw [if_pos (by rfl)] at h
  cases h
  rcases accept_fields (cmdField v) (idxField v)
    ((s.withEvents s.events.tail).withPhase .presented) with
    ⟨hi, hd, hnop | ⟨-, hlo, hhi⟩⟩ | ⟨hn, -, -, -, -, -, hi, hd, he⟩
  · exact .inl ⟨hi, hd, .inl hnop⟩
  · exact .inl ⟨hi, hd, .inr (errorCode_of_range _ hlo hhi)⟩
  · exact .inr ⟨hn, by rw [hi]; nofun, hd, he⟩

/-- A write at another offset is the write of the register there (20_memory.md R67). -/
theorem step_registerWrite {off : Offset} {v : Word} (hk : stepKind s = .hostWrite off v)
    (h0 : off ≠ 0) : t = writeRegister (Reg.ofOffset off) v (s.withEvents s.events.tail) := by
  rw [step_of_kind, hk] at h
  simp only [busWrite_next] at h
  rw [if_neg (ofOffset_ne_ctrl h0)] at h
  cases h
  rfl

/-- CMD_DONE, with its effect (30_encoding.md R101). -/
theorem step_cmdDone {c : InFlight} (hk : stepKind s = .cmdDone c) :
    cmdDone c (s.withEvents s.events.tail) = .next t := by
  rwa [step_of_kind, hk] at h

/-- GEN_DONE (40_gf_sbox.md R131). -/
theorem step_genDone (hk : stepKind s = .genDone) :
    t = (s.withEvents s.events.tail).genDone := by
  rw [step_of_kind, hk] at h
  cases h
  rfl

/-- RESET (70_reset_and_hazards.md R290). -/
theorem step_reset (hk : stepKind s = .reset) :
    t = (s.withEvents s.events.tail).resetHardware := by
  rw [step_of_kind, hk] at h
  cases h
  rfl

end Kinds

/-! ### The obligations -/

/-- Settles O18: each of the outcomes of `exec_next` writes only a few fields, and a read outside
STATUS, STATE and RK depends on none of them. -/
theorem execFrame : Obligations.ExecFrame := by
  intro i s t h
  obtain ⟨hkey, hready, hid, hie, hx, ha, hb, hrst, hrd, hev⟩ := exec_keeps h
  refine ⟨hkey, hready, hid, hie, hx, ha, hb, hrst, hrd, hev, ?_, ?_,
    fun off hst hoff => busRead_congr hst hoff hkey hready hid hie hx ha hb⟩
  · intro hp
    rcases exec_next h with ⟨-, rfl⟩ | ⟨-, rfl⟩ | ⟨hc, -⟩ | ⟨hc, -⟩
    · simp
    · simp
    all_goals rw [hp] at hc; cases hc
  · intro hp
    rcases exec_next h with ⟨-, rfl⟩ | ⟨hc, -⟩ | ⟨-, hc, rfl⟩ | ⟨-, hc, b, rfl⟩
    · simp
    · rw [hp] at hc; cases hc
    · simp [hc]
    · simp [hc]

/-- Settles O46: each kind of step, by what it writes; a host write by its offset, CMD_DONE by the
command it completes. -/
theorem writersOfEveryElement : Obligations.WritersOfEveryElement := by
  intro s t h
  rcases step_next h with ⟨off, hk, rfl⟩ | ⟨v, hk, rfl⟩ | ⟨off, v, hk, h0, rfl⟩ | ⟨hk, -, rfl⟩ |
    ⟨c, hk, -, -, hdone⟩ | ⟨hk, rfl⟩ | ⟨hk, rfl⟩ | ⟨hk, rfl⟩
  · simp
  · simp [hk]
  · rcases writeRegister_at h0 v (s.withEvents s.events.tail) with ⟨-, -, hw⟩ | ⟨rfl, hw⟩ |
      ⟨rfl, hw⟩ | ⟨rfl, hw⟩ | ⟨rfl, hw⟩ | ⟨hlo, hhi, hb, hw⟩ | ⟨hlo, hhi, hb, k, hw⟩ |
      ⟨hlo, hhi, hb, k, hw⟩ <;> rw [hw]
    · simp
    · simp +contextual [hk]
    · simp [hk]
    · simp [hk]
    · simp [hk]
    · rw [busy_withEvents] at hb; simp [hk, hlo, hhi, hb]
    · rw [busy_withEvents] at hb; simp [hk, hlo, hhi, hb]
    · rw [busy_withEvents] at hb; simp [hk, hlo, hhi, hb]
  · simp [hk]
  · rcases cmdDone_cases hdone with ⟨hc, rfl⟩ | ⟨hc, b, rfl⟩
    · simp [hk, hc]
    · simp [hk, hc]
  · simp
  · simp [hk]
  · simp

/-- Settles O47: the kinds of step R34 names leave DONE as it says; the other steps do not write it,
by R39's table, but for a CTRL write, which leaves it unless it launches. -/
theorem doneRule : Obligations.DoneRule := by
  intro s t h
  refine ⟨?_, ?_, ?_⟩
  · rintro ⟨c, hk⟩
    obtain ⟨ht, -⟩ := cmdDone_next (step_cmdDone h hk)
    rw [ht]
  · rintro (⟨v, hk, hn, hi⟩ | ⟨v, hk, hv⟩ | hk)
    · rcases step_ctrlWrite h hk with ⟨hsame, -⟩ | ⟨-, -, hd, -⟩
      · exact absurd (hsame.trans hn) hi
      · exact hd
    · have ht : t = (s.withEvents s.events.tail).writeStatus v :=
        step_registerWrite h hk (by decide)
      rw [ht, writeStatus_done, if_pos hv]
    · rw [step_reset h hk, resetHardware_done]
  · intro hcompletes haccepts hclears hreset
    by_contra hd
    obtain ⟨-, -, -, -, -, -, hdone, -⟩ := writersOfEveryElement s t h
    rcases hdone hd with hk | hk | ⟨v, hk⟩ | hk
    · exact hreset hk
    · exact hcompletes hk
    · rcases step_ctrlWrite h hk with ⟨-, hsame, -⟩ | ⟨hn, hi, -⟩
      · exact hd hsame
      · exact haccepts ⟨v, hk, hn, hi⟩
    · exact hclears hk

/-- Settles O48: the kinds of step R35 names leave ERR as it says; a step that turns it to 0 is one
of R39's table, and of those a CTRL write or a refused data write leaves it other than 0. -/
theorem errRule : Obligations.ErrRule := by
  intro s t h
  have hrefused (off v) (hk : stepKind s = .hostWrite off v) (hlo : 0x08 ≤ off.toNat)
      (hhi : off.toNat ≤ 0x0F) (hb : s.busy = true) : t.err = 5 := by
    rw [step_registerWrite h hk (by rintro rfl; exact absurd hlo (by decide)),
      writeRegister_data_busy hlo hhi (by rwa [busy_withEvents])]
    rfl
  refine ⟨?_, fun v hk => ?_, ?_, hrefused, ?_⟩
  · rintro (⟨v, hk, hv⟩ | hk)
    · have ht : t = (s.withEvents s.events.tail).writeStatus v :=
        step_registerWrite h hk (by decide)
      rw [ht, writeStatus_err, if_pos hv]
    · rw [step_reset h hk, resetHardware_err]
  · rcases step_ctrlWrite h hk with ⟨hsame, -, ⟨hnop, -⟩ | ⟨-, hcode⟩⟩ | ⟨hn, hi, -, he⟩
    · exact ⟨fun hn hi => absurd (hsame.trans hn) hi, fun _ h0 => absurd hnop h0⟩
    · exact ⟨fun hn hi => absurd (hsame.trans hn) hi, fun _ _ => hcode⟩
    · exact ⟨fun _ _ => he, fun hsame _ => absurd (hsame.trans hn) hi⟩
  · rintro ⟨c, hk⟩
    obtain ⟨ht, -⟩ := cmdDone_next (step_cmdDone h hk)
    rw [ht]
    rfl
  · intro ht hs
    have hne : t.err ≠ s.err := fun he => hs (he.symm.trans ht)
    obtain ⟨-, -, -, -, -, -, -, herr, -⟩ := writersOfEveryElement s t h
    rcases herr hne with hk | ⟨v, hk⟩ | hk | ⟨hb, off, v, hk, hlo, hhi⟩
    · exact .inr hk
    · rcases step_ctrlWrite h hk with ⟨-, -, ⟨-, he⟩ | ⟨he, -⟩⟩ | ⟨-, -, -, he⟩
      · exact absurd he hne
      · exact absurd ht he
      · exact absurd he hne
    · exact .inl hk
    · rw [hrefused off v hk hlo hhi hb] at ht
      cases ht

/-- Settles O49: the meaning is the invariant's clause; that no other step changes KEY_VALID is R39's
table; presented without it, the keyed commands fail the last check. -/
theorem keyValidRule : Obligations.KeyValidRule := by
  refine ⟨fun s hinv hv => ⟨_, hinv.schedule hv⟩, ?_, ?_⟩
  · intro s t h
    obtain ⟨-, -, -, hkv, -⟩ := writersOfEveryElement s t h
    refine ⟨?_, ?_, ?_⟩
    · rintro ⟨c, hk, hc⟩
      rcases cmdDone_cases (step_cmdDone h hk) with ⟨-, rfl⟩ | ⟨hc', -⟩
      · rfl
      · exact absurd hc hc'
    · intro hk
      rw [step_reset h hk, resetHardware_keyValid]
    · intro hexpands hreset
      by_contra hne
      exact (hkv hne).elim hreset hexpands
  · intro s x y hb hp hv
    have hx : (BitVec.ofNat 4 x.val).toNat ≤ 10 := by rw [BitVec.toNat_ofNat]; omega
    have refused : ∀ i : Instr, isKeyed i.code = true →
        (isIndexed i.code = true → i.index.toNat ≤ 10) → exec i s = .next { s with err := 3 } :=
      fun i hk hi => by rw [exec_presented i hp, accept_noKey hb hk hi hv]; rfl
    exact ⟨refused _ rfl nofun, refused _ rfl nofun, refused _ rfl fun _ => hx,
      refused _ rfl fun _ => hx, refused _ rfl fun _ => hx⟩

/-- Settles O50: that no other step changes SBOX_READY is R39's table; while it is 0 the hardware is
busy, so `Accept` answers BUSY. -/
theorem sboxReadyRule : Obligations.SboxReadyRule := by
  refine ⟨?_, rfl, ?_⟩
  · intro s t h
    obtain ⟨-, -, -, -, hready, -⟩ := writersOfEveryElement s t h
    refine ⟨?_, ?_, ?_⟩
    · intro hk
      rw [step_genDone h hk, genDone_sboxReady]
    · intro hk
      rw [step_reset h hk, resetHardware_sboxReady]
    · intro hgen hreset
      by_contra hne
      exact (hready hne).elim hreset hgen
  · intro s hr
    have hb : s.busy = true := by simp [State.busy, hr]
    refine ⟨hb, ?_, ?_⟩
    · have hq : busRead 0x04 s = s.sboxqWord := rfl
      rw [hq, State.sboxqWord, hr]
      rfl
    · intro v hv hp
      have hs : s.withPhase .presented = s := by rw [State.withPhase, ← hp]
      rw [busWrite_next, if_pos (by rfl), hs, accept_busy (cmd := cmdField v) hv hb]
      rfl

/-- Settles O51: `irq` is a Boolean combination of the four elements. -/
theorem irqRule : Obligations.IrqRule := by
  constructor
  · intro s
    simp [State.irq]
  · intro s t hid hd hie he
    simp only [State.irq, hid, hd, hie, he]

/-- Settles O52: with the S-box not ready, nothing in flight and no key, each clause holds of the
reset values. -/
theorem resetStateMeetsTheInvariant : Obligations.ResetStateMeetsTheInvariant where
  phasePresented := rfl
  errCode := by decide
  flightReady h := absurd rfl h
  flightAccepted _ h := nomatch h
  startUp _ := ⟨rfl, rfl, rfl, rfl⟩
  noKey _ := rfl
  schedule h := nomatch h

end Sys2Proof.Machine.Laws
end

section
/-! SUPPORT. The bus (20_memory.md): the packing of bytes into words, the address map as an equation per
register, what a read and a write of one register answer, and from these the statements about reads
and writes at every offset. -/

namespace Sys2Proof.Machine.Laws

/-! ### Words and bytes (00_scope.md R13, 20_memory.md R62) -/

/-- A packed word is its four bytes, one after the other. -/
theorem packBytes_eq_append (b3 b2 b1 b0 : Byte) :
    packBytes b3 b2 b1 b0 = (b3 ++ b2 ++ b1 ++ b0).setWidth 32 := by
  rw [BitVec.setWidth_append_append_append_eq_shiftLeft_setWidth_or, packBytes]

/-- A word is packed from its own four bytes. -/
theorem packBytes_extractLsb' (v : Word) :
    packBytes (v.extractLsb' 24 8) (v.extractLsb' 16 8) (v.extractLsb' 8 8) (v.extractLsb' 0 8) =
      v := by
  rw [packBytes_eq_append,
    BitVec.extractLsb'_append_extractLsb'_eq_extractLsb' (by rfl),
    BitVec.extractLsb'_append_extractLsb'_eq_extractLsb' (by rfl),
    BitVec.extractLsb'_append_extractLsb'_eq_extractLsb' (by rfl)]
  simp

/-- Bytewise AND of packed words. -/
theorem packBytes_and (a3 a2 a1 a0 b3 b2 b1 b0 : Byte) :
    packBytes a3 a2 a1 a0 &&& packBytes b3 b2 b1 b0 =
      packBytes (a3 &&& b3) (a2 &&& b2) (a1 &&& b1) (a0 &&& b0) := by
  simp only [packBytes_eq_append, ← BitVec.setWidth_and, BitVec.and_append]

/-- A byte widened to a word. -/
theorem packBytes_zero (b : Byte) : packBytes 0 0 0 b = b.setWidth 32 := by simp [packBytes]

/-- The mask 0xFF keeps byte 0 of a packed word. -/
theorem packBytes_and_0xFF (b3 b2 b1 b0 : Byte) :
    packBytes b3 b2 b1 b0 &&& 0xFF = packBytes 0 0 0 b0 := by
  have hmask : (0xFF : Word) = packBytes 0 0 0 (BitVec.allOnes 8) := by decide
  rw [hmask, packBytes_and]
  simp only [BitVec.ofNat_eq_ofNat, BitVec.and_allOnes, BitVec.and_zero]

/-- The mask 0xFFFF keeps bytes 1 and 0 of a packed word. -/
theorem packBytes_and_0xFFFF (b3 b2 b1 b0 : Byte) :
    packBytes b3 b2 b1 b0 &&& 0xFFFF = packBytes 0 0 b1 b0 := by
  have hmask : (0xFFFF : Word) = packBytes 0 0 (BitVec.allOnes 8) (BitVec.allOnes 8) := by decide
  rw [hmask, packBytes_and]
  simp only [BitVec.ofNat_eq_ofNat, BitVec.and_allOnes, BitVec.and_zero]

/-- `bitAt` as a choice between 0 and a power of two. -/
theorem bitAt_eq_ite (n : Nat) (b : Bool) : bitAt n b = if b then 1#32 <<< n else 0 := by
  cases b <;> simp [bitAt]

/-- The two CFG bits of a word, put back in their places. -/
theorem bitAt_one_or_bitAt_zero (v : Word) :
    bitAt 1 (v.getLsbD 1) ||| bitAt 0 (v.getLsbD 0) = v &&& 0x3 := by
  ext i hi
  interval_cases i <;> simp [bitAt]

/-- The word of a column that was read from a word. -/
@[simp] theorem word_ofWord (v : Word) : (Column.ofWord v).word = v := packBytes_extractLsb' v

/-- Row `r` of a column that was read from a word, row 0 in bits 31:24. -/
theorem row_ofWord (v : Word) (r : Fin 4) :
    (Column.ofWord v).row r = v.extractLsb' (24 - 8 * r.val) 8 := by
  fin_cases r <;> rfl

/-- Flat byte `4k + r` is the cell in row `r` of column `k` (00_scope.md R14). -/
theorem byte_eq_cell (b : Block) (k r : Fin 4) :
    b.byte ⟨4 * k.val + r.val, by omega⟩ = b.cell r k := by
  have hr : (4 * k.val + r.val) % 4 = r.val := by omega
  have hk : (4 * k.val + r.val) / 4 = k.val := by omega
  simp only [Block.byte, hr, hk]

/-- Word `k` is the bytes `b[4k] .. b[4k+3]`, the first one most significant. -/
theorem word_eq_packBytes_byte (b : Block) (k : Fin 4) :
    b.word k = packBytes (b.byte ⟨4 * k.val, by omega⟩) (b.byte ⟨4 * k.val + 1, by omega⟩)
      (b.byte ⟨4 * k.val + 2, by omega⟩) (b.byte ⟨4 * k.val + 3, by omega⟩) := by
  have hcells : b.word k = packBytes (b.cell 0 k) (b.cell 1 k) (b.cell 2 k) (b.cell 3 k) := rfl
  rw [hcells, ← byte_eq_cell b k 0, ← byte_eq_cell b k 1, ← byte_eq_cell b k 2,
    ← byte_eq_cell b k 3]
  rfl

@[simp] theorem col_setCol_same (b : Block) (k : Fin 4) (t : Column) : (b.setCol k t).col k = t := by
  fin_cases k <;> rfl

theorem col_setCol_of_ne {j k : Fin 4} (h : j ≠ k) (b : Block) (t : Column) :
    (b.setCol k t).col j = b.col j := by
  fin_cases k <;> fin_cases j <;> simp_all [Block.col, Block.setCol]

@[simp] theorem setCol_setCol_same (b : Block) (k : Fin 4) (t u : Column) :
    (b.setCol k t).setCol k u = b.setCol k u := by
  fin_cases k <;> rfl

@[simp] theorem word_setWord_same (b : Block) (k : Fin 4) (v : Word) :
    (b.setWord k v).word k = v := by
  rw [Block.word, Block.setWord, col_setCol_same, word_ofWord]

theorem word_setWord_of_ne {j k : Fin 4} (h : j ≠ k) (b : Block) (v : Word) :
    (b.setWord k v).word j = b.word j := by
  rw [Block.word, Block.setWord, col_setCol_of_ne h, Block.word]

@[simp] theorem setWord_setWord_same (b : Block) (k : Fin 4) (v w : Word) :
    (b.setWord k v).setWord k w = b.setWord k w := by
  simp only [Block.setWord, setCol_setCol_same]

/-! ### The address map (20_memory.md R61) -/

theorem ofOffset_key : ∀ k : Fin 4, Reg.ofOffset (BitVec.ofNat 6 (0x08 + k.val)) = .key k := by
  decide

theorem ofOffset_state : ∀ k : Fin 4, Reg.ofOffset (BitVec.ofNat 6 (0x0C + k.val)) = .state k := by
  decide

theorem ofOffset_rk : ∀ (i : RoundIndex) (k : Fin 4),
    Reg.ofOffset (BitVec.ofNat 6 (0x10 + 4 * i.val + k.val)) = .rk i k := by
  decide

/-- The offsets that R68 reserves. -/
theorem ofOffset_reserved : ∀ {off : Offset}, off = 0x06 ∨ off = 0x07 ∨ off.toNat ≥ 0x3C →
    Reg.ofOffset off = .reserved := by
  decide

/-- A register other than the reserved ones stands at one offset only. -/
theorem offset_eq_of_ofOffset_eq {a b : Offset} (h : Reg.ofOffset a = Reg.ofOffset b)
    (hb : Reg.ofOffset b ≠ .reserved) : a = b := by
  have ha' := ofOffset_standsAt a
  have hb' := ofOffset_standsAt b
  rw [h] at ha'
  apply BitVec.eq_of_toNat_eq
  cases hr : Reg.ofOffset b <;> rw [hr] at ha' hb' hb <;>
    simp only [standsAt, decide_eq_true_eq] at ha' hb'
  case reserved => exact absurd rfl hb
  all_goals rw [ha', hb']

/-! ### Reading and writing one register (20_memory.md R66, R67) -/

section Registers
variable (s : State)

/-- BUSY is `sbox_ready = 0` or a command in flight (10_state.md R25). -/
theorem busy_iff : s.busy = true ↔ s.sboxReady = false ∨ s.inflight ≠ none := by
  rw [← Bool.not_eq_false, not_busy_iff, not_and_or, Bool.not_eq_true]

@[simp] theorem busy_raiseError (c : BitVec 3) : (s.raiseError c).busy = s.busy := rfl
@[simp] theorem busy_setKeyWord (k : Fin 4) (v : Word) : (s.setKeyWord k v).busy = s.busy := rfl
@[simp] theorem busy_setStateWord (k : Fin 4) (v : Word) : (s.setStateWord k v).busy = s.busy := rfl

@[simp] theorem raiseError_raiseError (c d : BitVec 3) :
    (s.raiseError c).raiseError d = s.raiseError d := rfl
@[simp] theorem setKeyWord_setKeyWord_same (k : Fin 4) (v w : Word) :
    (s.setKeyWord k v).setKeyWord k w = s.setKeyWord k w := by
  simp only [State.setKeyWord, setWord_setWord_same]
@[simp] theorem setStateWord_setStateWord_same (k : Fin 4) (v w : Word) :
    (s.setStateWord k v).setStateWord k w = s.setStateWord k w := by
  simp only [State.setStateWord, setWord_setWord_same]

theorem writeRegister_key (k : Fin 4) (v : Word) : writeRegister (.key k) v s =
    if s.busy then s.raiseError errWrBusy else s.setKeyWord k v := rfl
theorem writeRegister_state (k : Fin 4) (v : Word) : writeRegister (.state k) v s =
    if s.busy then s.raiseError errWrBusy else s.setStateWord k v := rfl
theorem readRegister_state (k : Fin 4) :
    readRegister (.state k) s = if s.busy then 0 else s.state.word k := rfl
theorem readRegister_rk (i : RoundIndex) (k : Fin 4) :
    readRegister (.rk i k) s = if s.busy then 0 else s.rk[i].word k := rfl
theorem busRead_status : busRead 0x01 s = s.statusWord := rfl
theorem busRead_cfg : busRead 0x02 s = s.cfgWord := rfl
theorem busRead_sboxq : busRead 0x04 s = s.sboxqWord := rfl
theorem busRead_gfmul : busRead 0x05 s = s.gfmulWord := rfl

/-- A STATUS write as one update of `done` and `err` (20_memory.md R67). -/
theorem writeStatus_eq (v : Word) : s.writeStatus v = { s with
    done := if v.getLsbD 1 then false else s.done
    err := if v.getLsbD 8 then 0 else s.err } := by
  unfold State.writeStatus
  cases v.getLsbD 1 <;> cases v.getLsbD 8 <;> rfl

/-- Byte 0 of SBOXQ is the queried byte, whether the tables are ready or not (10_state.md R29). -/
theorem sboxqWord_and_0xFF : s.sboxqWord &&& 0xFF = packBytes 0 0 0 s.sqX := by
  unfold State.sboxqWord
  split
  · exact packBytes_and_0xFF _ _ _ _
  · rw [← packBytes_zero, packBytes_and_0xFF]

/-- Bytes 1 and 0 of GFMUL are the two operands (10_state.md R30). -/
theorem gfmulWord_and_0xFFFF : s.gfmulWord &&& 0xFFFF = packBytes 0 0 s.gfB s.gfA :=
  packBytes_and_0xFFFF _ _ _ _

variable {s}

/-- Presenting changes nothing of a state whose phase is `presented` already (log entry 4). -/
theorem withPhase_presented (hp : s.phase = .presented) : s.withPhase .presented = s := by
  rw [State.withPhase, ← hp]

/-- The writes that are ignored: to ID, RK and the reserved offsets. -/
theorem writeRegister_ignored {off : Offset}
    (h : off = 0x03 ∨ off = 0x06 ∨ off = 0x07 ∨ off.toNat ≥ 0x10) (v : Word) :
    writeRegister (Reg.ofOffset off) v s = s := by
  rcases h with rfl | rfl | rfl | h
  · rfl
  · rfl
  · rfl
  · have hat := ofOffset_standsAt off
    cases hr : Reg.ofOffset off <;> rw [hr] at hat <;>
      simp only [standsAt, decide_eq_true_eq] at hat
    case rk i k => rfl
    case reserved => rfl
    all_goals omega

/-- Repeating the write of a register leaves what the first write left (20_memory.md R69). -/
theorem writeRegister_writeRegister (r : Reg) (v : Word) (s : State) :
    writeRegister r v (writeRegister r v s) = writeRegister r v s := by
  cases r
  case status =>
    simp only [writeRegister, writeStatus_eq]
    cases v.getLsbD 1 <;> cases v.getLsbD 8 <;> rfl
  case key k =>
    cases hb : s.busy <;> simp [writeRegister_key, hb]
  case state k =>
    cases hb : s.busy <;> simp [writeRegister_state, hb]
  all_goals rfl

/-- A word of KEY reads back. -/
theorem readRegister_setKeyWord_same (k : Fin 4) (v : Word) :
    readRegister (.key k) (s.setKeyWord k v) = v := word_setWord_same s.key k v

/-- Writing a word of KEY disturbs no other register. -/
theorem readRegister_setKeyWord_of_ne {r : Reg} {k : Fin 4} (h : r ≠ .key k) (v : Word) :
    readRegister r (s.setKeyWord k v) = readRegister r s := by
  cases r
  case key j => exact word_setWord_of_ne (fun hj => h (congrArg Reg.key hj)) s.key v
  all_goals rfl

/-- A word of STATE reads back while idle. -/
theorem readRegister_setStateWord_same (hb : s.busy = false) (k : Fin 4) (v : Word) :
    readRegister (.state k) (s.setStateWord k v) = v := by
  simp [readRegister_state, hb]

/-- Writing a word of STATE disturbs no other register. -/
theorem readRegister_setStateWord_of_ne {r : Reg} {k : Fin 4} (h : r ≠ .state k) (v : Word) :
    readRegister r (s.setStateWord k v) = readRegister r s := by
  cases r
  case state j =>
    have hj : j ≠ k := fun hj => h (congrArg Reg.state hj)
    rw [readRegister_state, readRegister_state, busy_setStateWord, setStateWord_state,
      word_setWord_of_ne hj]
  all_goals rfl

/-- Replacing STATE and the schedule changes no register read while busy. -/
theorem readRegister_busy_hidden (hb : s.busy = true) (b : Block) (w : Schedule) (r : Reg) :
    readRegister r { s with state := b, rk := w } = readRegister r s := by
  have hb' : ({ s with state := b, rk := w } : State).busy = true := hb
  cases r
  case state k => rw [readRegister_state, readRegister_state, if_pos hb, if_pos hb']
  case rk i k => rw [readRegister_rk, readRegister_rk, if_pos hb, if_pos hb']
  all_goals rfl

end Registers

/-! ### Bus accesses (00_scope.md R9, 20_memory.md R66, R67) -/

section Accesses
variable {s : State}

/-- A write at an offset where another register than CTRL stands is the write of that register. -/
theorem busWrite_of_ofOffset {off : Offset} {r : Reg} (hr : Reg.ofOffset off = r) (hc : r ≠ .ctrl)
    (v : Word) (s : State) : busWrite off v s = .next (writeRegister r v s) := by
  rw [busWrite_next, hr, if_neg hc]

/-- A write at an offset other than CTRL's is the write of the register there. -/
theorem busWrite_of_ne_ctrl {off : Offset} (h0 : off ≠ 0) (v : Word) (s : State) :
    busWrite off v s = .next (writeRegister (Reg.ofOffset off) v s) :=
  busWrite_of_ofOffset rfl (ofOffset_ne_ctrl h0) v s

/-- A read at an offset reads the register that stands there. -/
theorem busRead_of_ofOffset {off : Offset} {r : Reg} (hr : Reg.ofOffset off = r) (s : State) :
    busRead off s = readRegister r s := by
  rw [busRead, hr]

/-- A host write, with `rst_n` high, is a bus write at the state with that event taken. -/
theorem step_hostWrite {off : Offset} {v : Word} {rest : List Event} (hrst : s.rstN = true)
    (hev : s.events = .host (.write off v) :: rest) :
    step s = busWrite off v (s.withEvents rest) := by
  have hk : stepKind s = .hostWrite off v := by simp [stepKind, hev, hrst]
  rw [step_of_kind, hk, hev, List.tail_cons]

/-- A host read, with `rst_n` high, latches the value that the bus read returns. -/
theorem step_hostRead {off : Offset} {rest : List Event} (hrst : s.rstN = true)
    (hev : s.events = .host (.read off) :: rest) :
    step s = .next ((s.withEvents rest).latch (busRead off s)) := by
  have hk : stepKind s = .hostRead off := by simp [stepKind, hev]
  rw [step_of_kind, hk, hev, List.tail_cons]
  simp only [if_pos hrst]

/-- A CTRL write whose word decodes to a command presents that command. -/
theorem busWrite_ctrl_of_decode {v : Word} {i : Instr} (hd : decode v = .ok i) (s : State) :
    busWrite 0x00 v s = exec i (s.withPhase .presented) := by
  have hc : busWrite 0x00 v s = presentWord v s := rfl
  rw [hc, presentWord, hd]

/-- A write that reads back in its register and disturbs no other one does so at the offsets, because
no second offset shows that register. -/
theorem busWrite_readsBack {off : Offset} {r : Reg} {v : Word} {t : State}
    (hr : Reg.ofOffset off = r) (hc : r ≠ .ctrl) (hres : r ≠ .reserved)
    (hw : writeRegister r v s = t) (hback : readRegister r t = v)
    (hother : ∀ r', r' ≠ r → readRegister r' t = readRegister r' s) :
    ∃ t, busWrite off v s = .next t ∧ busRead off t = v ∧
      ∀ off' : Offset, off' ≠ off → busRead off' t = busRead off' s := by
  refine ⟨t, ?_, ?_, fun off' hne => hother _ fun h => hne ?_⟩
  · rw [busWrite_of_ofOffset hr hc, hw]
  · rw [busRead_of_ofOffset hr, hback]
  · exact offset_eq_of_ofOffset_eq (h.trans hr.symm) (hr ▸ hres)

end Accesses

/-! ### The obligations -/

/-- Settles O36: each offset by the register there; the single bits of STATUS and CFG are choices
between 0 and a power of two. -/
theorem busReadTable : Obligations.BusReadTable := by
  intro s
  refine ⟨busy_iff s, rfl, ?_, ?_, rfl, rfl, ?_, fun k => busRead_of_ofOffset (ofOffset_key k) s,
    fun k => busRead_of_ofOffset (ofOffset_state k) s,
    fun i k => busRead_of_ofOffset (ofOffset_rk i k) s,
    fun off h => busRead_of_ofOffset (ofOffset_reserved h) s⟩
  · rw [busRead_status, State.statusWord]
    simp only [bitAt_eq_ite]
    rfl
  · rw [busRead_cfg, State.cfgWord]
    simp only [bitAt_eq_ite]
    rfl
  · rw [busRead_gfmul, State.gfmulWord]
    simp [packBytes]

/-- Settles O38: CTRL is `Accept`; every other offset by the register there. -/
theorem busWriteTable : Obligations.BusWriteTable := by
  intro s v
  refine ⟨fun hp => ?_, ?_, rfl, rfl, rfl,
    fun k => busWrite_of_ofOffset (ofOffset_key k) nofun v s,
    fun k => busWrite_of_ofOffset (ofOffset_state k) nofun v s, fun off h => ?_⟩
  · rw [busWrite_next, if_pos (by rfl), withPhase_presented hp]
    rfl
  · rw [← writeStatus_eq]
    rfl
  · have h0 : off ≠ 0 := by rintro rfl; revert h; decide
    rw [busWrite_of_ne_ctrl h0, writeRegister_ignored h]

/-- Settles O40: the first four data offsets are KEY, the others STATE; the write of either leaves
every other register's value. The writable fields of the three ports are masks of the word. -/
theorem writtenWordsReadBack : Obligations.WrittenWordsReadBack := by
  intro s v
  refine ⟨fun hb k => ?_, ⟨s.setCfg v, rfl, ?_⟩, ⟨s.setSboxq v, rfl, ?_⟩, s.setGfmul v, rfl, ?_⟩
  · cases k using Fin.addCases (m := 4) (n := 4) with
    | left k =>
      have hw : writeRegister (.key k) v s = s.setKeyWord k v := by simp [writeRegister_key, hb]
      exact busWrite_readsBack (ofOffset_key k) nofun nofun hw
        (readRegister_setKeyWord_same k v) fun r h => readRegister_setKeyWord_of_ne h v
    | right k =>
      have hoff : 0x08 + (Fin.natAdd 4 k).val = 0x0C + k.val := (Nat.add_assoc 8 4 k.val).symm
      have hw : writeRegister (.state k) v s = s.setStateWord k v := by
        simp [writeRegister_state, hb]
      rw [hoff]
      exact busWrite_readsBack (ofOffset_state k) nofun nofun hw
        (readRegister_setStateWord_same hb k v) fun r h => readRegister_setStateWord_of_ne h v
  · exact bitAt_one_or_bitAt_zero v
  · calc busRead 0x04 (s.setSboxq v) &&& 0xFF
      _ = packBytes 0 0 0 (v.extractLsb' 0 8) := sboxqWord_and_0xFF (s.setSboxq v)
      _ = v &&& 0xFF := by rw [← packBytes_and_0xFF, packBytes_extractLsb']
  · calc busRead 0x05 (s.setGfmul v) &&& 0xFFFF
      _ = packBytes 0 0 (v.extractLsb' 8 8) (v.extractLsb' 0 8) :=
        gfmulWord_and_0xFFFF (s.setGfmul v)
      _ = v &&& 0xFFFF := by rw [← packBytes_and_0xFFFF, packBytes_extractLsb']

/-- Settles O41: the write of a register leaves what a second write of the same word leaves. -/
theorem repeatedWritesAreIdempotent : Obligations.RepeatedWritesAreIdempotent := by
  intro off v s h0
  refine ⟨_, busWrite_of_ne_ctrl h0 v s, ?_⟩
  rw [busWrite_of_ne_ctrl h0, writeRegister_writeRegister]

/-- Settles O7: the host step is a bus write to CTRL, which presents what its word decodes to. -/
theorem ctrlWriteRunsTheDecodedCommand : Obligations.CtrlWriteRunsTheDecodedCommand := by
  intro s v i rest hrst hev hd
  rw [step_hostWrite hrst hev, busWrite_ctrl_of_decode hd]
  rfl

/-- Settles O37: the host step latches the value and takes its event, nothing else. -/
theorem readStepChangesNothing : Obligations.ReadStepChangesNothing := by
  intro s off rest hrst hev
  rw [step_hostRead hrst hev]
  rfl

/-- Settles O39: bytes by row and column, then column `k` as it was put. -/
theorem wordPacking : Obligations.WordPacking := by
  intro b k v
  refine ⟨word_eq_packBytes_byte b k, fun r => ?_, fun j hj => col_setCol_of_ne hj b _,
    word_setWord_same b k v⟩
  rw [Block.cell, Block.setWord, col_setCol_same, row_ofWord]

/-- Settles O42: STATE and RK read as 0 while busy, and no other register shows them. -/
theorem busyHidesStateAndSchedule : Obligations.BusyHidesStateAndSchedule :=
  fun _ b w off hb => readRegister_busy_hidden hb b w (Reg.ofOffset off)

end Sys2Proof.Machine.Laws
end

section
/-! SUPPORT. The command word (30_encoding.md): its two fields, the decoder and the encoder as
inverses of each other, each outcome of the acceptance rule R98 under its own condition, and the step
that runs a command, presented or completing. -/

namespace Sys2Proof.Machine.Laws

/-! ### The fields of a command word (30_encoding.md R91 to R96) -/

/-- The facts of a command's word, for every command. -/
theorem wordFields : ∀ i : Instr, Sys2Proof.Laws.WordFields.Statement i
  | .nop => Sys2Proof.Laws.WordFields.nop
  | .keyExpand idx => Sys2Proof.Laws.WordFields.keyExpand idx
  | .encrypt idx => Sys2Proof.Laws.WordFields.encrypt idx
  | .decrypt idx => Sys2Proof.Laws.WordFields.decrypt idx
  | .subBytes idx => Sys2Proof.Laws.WordFields.subBytes idx
  | .shiftRows idx => Sys2Proof.Laws.WordFields.shiftRows idx
  | .mixColumns idx => Sys2Proof.Laws.WordFields.mixColumns idx
  | .addRoundKey idx => Sys2Proof.Laws.WordFields.addRoundKey idx
  | .invSubBytes idx => Sys2Proof.Laws.WordFields.invSubBytes idx
  | .invShiftRows idx => Sys2Proof.Laws.WordFields.invShiftRows idx
  | .invMixColumns idx => Sys2Proof.Laws.WordFields.invMixColumns idx
  | .encRound idx => Sys2Proof.Laws.WordFields.encRound idx
  | .decRound idx => Sys2Proof.Laws.WordFields.decRound idx

@[simp] theorem cmdField_encode (i : Instr) : cmdField (encode i) = i.code := by
  obtain ⟨hcmd, -⟩ := wordFields i
  exact hcmd

@[simp] theorem idxField_encode (i : Instr) : idxField (encode i) = i.index := by
  obtain ⟨-, hidx, -⟩ := wordFields i
  exact hidx

/-- No command has a reserved CMD value (30_encoding.md R94). -/
@[simp] theorem not_isReserved_code (i : Instr) : isReserved i.code = false := by
  obtain ⟨-, -, -, hle, -⟩ := wordFields i
  exact not_isReserved_of_le hle

/-- The opcode map (30_encoding.md R93) reads back the fields of every command. -/
@[simp] theorem decodeFields_code_index (i : Instr) : decodeFields i.code i.index = .ok i := by
  cases i <;> rfl

/-- A word put together from the two fields of `v` is `v` with its reserved bits 31:12 and 7:4
cleared. -/
theorem encodeFields_cmdField_idxField (v : Word) :
    encodeFields (cmdField v) (idxField v) = v &&& 0x00000F0F := by
  ext i hi
  simp only [encodeFields, cmdField, idxField]
  interval_cases i <;> simp

/-- The reserved bits are outside CMD. -/
@[simp] theorem cmdField_and_mask (v : Word) : cmdField (v &&& 0x00000F0F) = cmdField v := by
  ext i hi
  simp only [cmdField]
  interval_cases i <;> simp

/-- The reserved bits are outside IDX. -/
@[simp] theorem idxField_and_mask (v : Word) : idxField (v &&& 0x00000F0F) = idxField v := by
  ext i hi
  simp only [idxField]
  interval_cases i <;> simp

theorem code_eq_zero_iff (i : Instr) : i.code = 0 ↔ i = .nop := by
  cases i <;> simp [Instr.code]

/-- Only an indexed command with an index above 10 is ill formed (30_encoding.md R92). -/
theorem wellFormed_iff (i : Instr) :
    i.wellFormed = true ↔ (isIndexed i.code = true → i.index.toNat ≤ 10) := by
  cases i <;> simp [Instr.wellFormed, Instr.code, Instr.index, isIndexed, legalIndex]

theorem isReserved_iff : ∀ cmd : Nibble,
    isReserved cmd = true ↔ cmd = 0xD ∨ cmd = 0xE ∨ cmd = 0xF := by
  decide

theorem isIndexed_iff : ∀ cmd : Nibble,
    isIndexed cmd = true ↔ cmd = 0x7 ∨ cmd = 0xB ∨ cmd = 0xC := by
  decide

theorem isKeyed_iff : ∀ cmd : Nibble, isKeyed cmd = true ↔
    cmd = 0x2 ∨ cmd = 0x3 ∨ cmd = 0x7 ∨ cmd = 0xB ∨ cmd = 0xC := by
  decide

/-- A reserved CMD value is that of no command, which the decoder says with the value itself. -/
theorem decode_of_reserved {v : Word} (h : isReserved (cmdField v) = true) :
    decode v = .error (.reservedCommand (cmdField v)) := by
  rcases (isReserved_iff _).1 h with hc | hc | hc <;> rw [decode, hc] <;> rfl

/-! ### The outcomes of acceptance (30_encoding.md R98), beside `accept_busy` and `accept_noKey` -/

section Acceptance
variable {cmd idx : Nibble} {s : State}

theorem accept_zero (idx : Nibble) (s : State) : accept 0 idx s = s := if_pos rfl

theorem accept_reserved (hb : s.busy = false) (hr : isReserved cmd = true) :
    accept cmd idx s = s.raiseError errIllegalCmd := by
  have h0 : cmd ≠ 0 := by rintro rfl; exact absurd hr (by decide)
  rw [accept, if_neg h0, hb, hr]
  rfl

theorem accept_badIndex (hb : s.busy = false) (hr : isReserved cmd = false)
    (hx : isIndexed cmd = true) (hi : idx.toNat > 10) :
    accept cmd idx s = s.raiseError errBadIndex := by
  have h0 : cmd ≠ 0 := by rintro rfl; exact absurd hx (by decide)
  rw [accept, if_neg h0, hb, hr, hx, decide_eq_true hi]
  rfl

theorem accept_launch (h0 : cmd ≠ 0) (hb : s.busy = false) (hr : isReserved cmd = false)
    (hx : isIndexed cmd = true → idx.toNat ≤ 10) (hk : isKeyed cmd = true → s.keyValid = true) :
    accept cmd idx s = s.launch cmd idx := by
  have hi : (isIndexed cmd && decide (idx.toNat > 10)) = false := by
    rw [Bool.eq_false_iff]; simpa using hx
  have hv : (isKeyed cmd && !s.keyValid) = false := by
    rw [Bool.eq_false_iff]; simpa using hk
  rw [accept, if_neg h0, hb, hr, hi, hv]
  rfl

end Acceptance

/-! ### The steps that run a command -/

section Steps
variable {s : State}

/-- A CTRL write, with `rst_n` high, is `Accept` of the fields of its word. -/
theorem step_ctrl {v : Word} {rest : List Event} (hrst : s.rstN = true)
    (hp : s.phase = .presented) (hev : s.events = .host (.write 0x00 v) :: rest) :
    step s = .next (accept (cmdField v) (idxField v) (s.withEvents rest)) := by
  have hp' : (s.withEvents rest).phase = .presented := hp
  rw [step_hostWrite hrst hev, busWrite_next, if_pos (by rfl), withPhase_presented hp']

/-- CMD_DONE runs the command that the pair in flight decodes to. -/
theorem cmdDone_of_decode {c : InFlight} {i : Instr} (hd : decodeFields c.cmd c.idx = .ok i)
    (hn : i ≠ .nop) (s : State) : cmdDone c s = exec i (s.withPhase .completing) := by
  rw [cmdDone, hd]
  cases i
  case nop => exact absurd rfl hn
  all_goals rfl

/-- With the S-box ready and `rst_n` high, the Core completes the command in flight. -/
theorem coreStep_of_inflight {c : InFlight} (hrst : s.rstN = true) (hready : s.sboxReady = true)
    (hfl : s.inflight = some c) : coreStep s = cmdDone c s := by
  simp [coreStep, hrst, hready, hfl]

/-- With a command other than NOP in flight, the Core's step is that command, completing. -/
theorem coreStep_of_decode {c : InFlight} {i : Instr} (hrst : s.rstN = true)
    (hready : s.sboxReady = true) (hfl : s.inflight = some c)
    (hd : decodeFields c.cmd c.idx = .ok i) (hn : i ≠ .nop) :
    coreStep s = exec i (s.withPhase .completing) := by
  rw [coreStep_of_inflight hrst hready hfl, cmdDone_of_decode hd hn]

/-- With the Core's event first, the machine takes the Core's step at the state with it taken. -/
theorem step_of_core {rest : List Event} (hev : s.events = .core :: rest) :
    step s = coreStep (s.withEvents rest) := by
  rw [step, takeStep, hev]
  rfl

/-- With no event left, the machine takes the Core's step. -/
theorem step_of_no_event (hev : s.events = []) : step s = coreStep s := by
  rw [step, takeStep, hev]

/-- Completing an indexed command with an illegal index stops. -/
theorem runIndexed_illegal {idx : Nibble} (hx : idx.toNat > 10) (hp : s.phase = .completing)
    (cmd : Nibble) (effect : RoundIndex → State → State) :
    runIndexed cmd idx effect s = .fault .notAcceptable := by
  rw [runIndexed, hp, roundIndex_of_illegal hx]

end Steps

/-! ### Placing a command word (log entry 7) -/

section Placing
variable {i : Instr} (s : State)

/-- The word that `withFetchWord` places is the one whose bits it is given. -/
theorem withFetchWord_toNat (v : Word) : s.withFetchWord 32 v.toNat = placeWord v s := by
  rw [State.withFetchWord, Nat.mod_eq_of_lt v.isLt, BitVec.ofNat_toNat, BitVec.setWidth_eq]

/-- The word of a well-formed command other than NOP can be in flight. -/
theorem canFly_encode (hn : i ≠ .nop) (hw : i.wellFormed = true) : canFly (encode i) = true := by
  have hd : decode (encode i) = .ok i := by simp [decode]
  rw [canFly, hd]
  cases i
  case nop => exact absurd rfl hn
  all_goals exact hw

/-- What a state made ready for a command word has: everything acceptance asks for, the KEY and
STATE it had, and the schedule it had, if any. -/
theorem readyFor_spec (v : Word) :
    (readyFor v s).busy = false ∧ (readyFor v s).rstN = true ∧
    (isKeyed (cmdField v) = true → (readyFor v s).keyValid = true) ∧
    (readyFor v s).key = s.key ∧ (readyFor v s).state = s.state ∧
    (s.keyValid = true → (readyFor v s).rk = s.rk) := by
  cases hk : isKeyed (cmdField v) <;> cases hv : s.keyValid <;>
    simp [readyFor, hk, hv, State.busy]

/-- Put in flight, a well-formed command other than NOP is launched from the state made ready for
it. -/
theorem putInFlight_encode (hn : i ≠ .nop) (hw : i.wellFormed = true) :
    putInFlight (encode i) s =
      ((readyFor (encode i) s).launch i.code i.index).withEvents (.core :: s.events) := by
  obtain ⟨hb, -, hk, -⟩ := readyFor_spec s (encode i)
  rw [cmdField_encode] at hk
  rw [putInFlight, cmdField_encode, idxField_encode, accept_launch (mt (code_eq_zero_iff i).1 hn) hb
    (not_isReserved_code i) ((wellFormed_iff i).1 hw) hk]

end Placing

/-! ### The obligations -/

/-- Settles O1: the encoder puts CMD and IDX where the decoder reads them, and the opcode map reads
back the fields of every command. -/
theorem decodeEncodeRoundTrip : Obligations.DecodeEncodeRoundTrip := by
  intro i
  rw [decode, cmdField_encode, idxField_encode, decodeFields_code_index]

/-- Settles O2: what `v` decodes to keeps the fields of `v`, but for the IDX of NOP. -/
theorem encodeInvertsDecode : Obligations.EncodeInvertsDecode := by
  intro v i hd
  obtain ⟨hcode, hidx⟩ := decodeFields_ok hd
  by_cases hn : i = .nop
  · rw [if_pos hn, hn]
    rfl
  · rw [if_neg hn, encode, hcode, hidx.resolve_left hn, encodeFields_cmdField_idxField]

/-- Settles O3: the decoder and a CTRL write read the two fields only. -/
theorem reservedBitsChangeNothing : Obligations.ReservedBitsChangeNothing := by
  intro v
  constructor
  · rw [decode, decode, cmdField_and_mask, idxField_and_mask]
  · intro s
    rw [busWrite_next, busWrite_next, cmdField_and_mask, idxField_and_mask]
    rfl

/-- Settles O4: each word is put together from its two fields. -/
theorem commandWordsInHexadecimal : Obligations.CommandWordsInHexadecimal :=
  ⟨rfl, rfl, rfl, rfl, rfl, rfl, rfl, rfl, rfl, rfl, rfl, fun _ => ⟨rfl, rfl, rfl⟩⟩

/-- Settles O5: each word is taken apart into its two fields. -/
theorem specCommandWordsDecode : Obligations.SpecCommandWordsDecode :=
  ⟨rfl, rfl, rfl, rfl, rfl, rfl, rfl, rfl, rfl, rfl, rfl, rfl⟩

/-- Settles O6: a reserved CMD value is not 0 and fails the check after BUSY. -/
theorem reservedCommandsAreRefused : Obligations.ReservedCommandsAreRefused := by
  intro v hv
  have hr : isReserved (cmdField v) = true := (isReserved_iff _).2 hv
  refine ⟨decode_of_reserved hr, fun s rest hrst hp hev => ?_⟩
  rw [step_ctrl hrst hp hev]
  cases hb : s.busy
  · rw [accept_reserved ((busy_withEvents s rest).trans hb) hr]
    rfl
  · have h0 : cmdField v ≠ 0 := by intro h; rw [h] at hr; exact absurd hr (by decide)
    rw [accept_busy h0 ((busy_withEvents s rest).trans hb)]
    rfl

/-- Settles O8: with a command in flight and the S-box ready, the Core's step is CMD_DONE. -/
theorem cmdDoneRunsTheCommandInFlight : Obligations.CmdDoneRunsTheCommandInFlight := by
  intro s c i hrst hready hfl hd hn
  constructor
  · intro rest hev
    rw [step_of_core hev, coreStep_of_decode (s := s.withEvents rest) hrst hready hfl hd hn]
    rfl
  · intro hev
    rw [step_of_no_event hev, coreStep_of_decode hrst hready hfl hd hn]
    rfl

/-- Settles O9: the placed word is launched from the state made ready for it, and the next step is
the Core's. -/
theorem placedWordRunsItsCommand : Obligations.PlacedWordRunsItsCommand := by
  intro s i hn hw
  obtain ⟨hb, hrst, -, hkey, hstate, hrk⟩ := readyFor_spec s (encode i)
  obtain ⟨hready, -⟩ := (not_busy_iff _).1 hb
  refine ⟨(((readyFor (encode i) s).launch i.code i.index).withEvents s.events).withPhase
    .completing, ?_, rfl, hkey, hstate, rfl, rfl, hrk⟩
  rw [withFetchWord_toNat, placeWord, if_pos (canFly_encode hn hw), putInFlight_encode s hn hw,
    step_core_event]
  exact coreStep_of_decode (c := ⟨i.code, i.index⟩) hrst hready rfl (decodeFields_code_index i) hn

/-- Settles O10: each clause is one outcome of `Accept`. -/
theorem ctrlWriteFollowsAcceptance : Obligations.CtrlWriteFollowsAcceptance := by
  intro s v rest hrst hp hev
  have hcmd : v.extractLsb' 0 4 = cmdField v := rfl
  have hidx : v.extractLsb' 8 4 = idxField v := rfl
  dsimp only
  rw [hcmd, hidx, ← isReserved_iff, ← isKeyed_iff, ← isIndexed_iff, ← busy_iff, Bool.not_eq_true,
    Bool.not_eq_true, ← busy_withEvents s rest, step_ctrl hrst hp hev]
  refine ⟨fun h0 => ?_, fun h0 hb => ?_, fun _ hb hr => ?_, fun _ hb hr hx hi => ?_,
    fun _ hb _ hx hk hv => ?_, fun h0 hb hr hx hk => ?_⟩
  · rw [h0, accept_zero]
    rfl
  · rw [accept_busy h0 hb]
    rfl
  · rw [accept_reserved hb hr]
    rfl
  · rw [accept_badIndex hb hr hx hi]
    rfl
  · rw [accept_noKey hb hk hx hv]
    rfl
  · rw [accept_launch h0 hb hr hx hk]
    rfl

/-- Settles O11: presenting a command is `Accept` of its fields, and the index check fails exactly
for an ill-formed command. -/
theorem presentedCommandsAreAcceptedOrRefused :
    Obligations.PresentedCommandsAreAcceptedOrRefused := by
  intro i s hn hp
  have h0 : i.code ≠ 0 := mt (code_eq_zero_iff i).1 hn
  have hr := not_isReserved_code i
  dsimp only
  rw [← busy_iff, Bool.not_eq_true, exec_presented i hp]
  refine ⟨fun hb => ?_, fun hb hw => ?_, fun hb hw hk hv => ?_, fun hb hw hk => ?_⟩
  · rw [accept_busy h0 hb]
    rfl
  · rw [← Bool.not_eq_true, wellFormed_iff, Classical.not_imp] at hw
    obtain ⟨hx, hi⟩ := hw
    rw [accept_badIndex hb hr hx (not_le.1 hi)]
    rfl
  · rw [accept_noKey hb hk ((wellFormed_iff i).1 hw) hv]
    rfl
  · rw [accept_launch h0 hb hr ((wellFormed_iff i).1 hw) hk]
    rfl

/-- Settles O17: an index above 10 is no round index. -/
theorem indexAboveTenStops : Obligations.IndexAboveTenStops :=
  fun _ _ hx hp => ⟨runIndexed_illegal hx hp _ _, runIndexed_illegal hx hp _ _,
    runIndexed_illegal hx hp _ _⟩

end Sys2Proof.Machine.Laws
end

section
/-! SUPPORT. The invariant (30_encoding.md R98, R101, 10_state.md R31, 70_reset_and_hazards.md R292) is
kept by each operation that a step is made of; and the command in flight is out of the host's reach
until CMD_DONE (30_encoding.md R101): KEY, STATE and the schedule are then what they were at
acceptance. -/

namespace Sys2Proof.Machine.Laws

/-! ### Every operation keeps the invariant -/

/-- Round key 0 of the schedule of a key is the key (41_key_schedule.md R151). -/
theorem keyExpansion_zero (key : Block) : (keyExpansion key)[0] = key := by
  rw [keyExpansion, Vector.getElem_ofFn, roundKey]

/-- The CMD values other than 0x0 that are not reserved (30_encoding.md R94). -/
theorem code_range_of_not_isReserved : ∀ {cmd : Nibble}, cmd ≠ 0 → isReserved cmd = false →
    1 ≤ cmd.toNat ∧ cmd.toNat ≤ 0xC := by
  decide

section Invariant
variable {s : State} (hinv : s.Inv)
include hinv

theorem inv_latch (v : Word) : (s.latch v).Inv := { hinv with }

theorem inv_holdReset : s.holdReset.Inv := { hinv with }

/-- Refusing an access sets ERR to one of the codes of 60_exceptions.md R262. -/
theorem inv_raiseError {c : BitVec 3} (hc : c.toNat ≤ 5) : (s.raiseError c).Inv :=
  { hinv with errCode := hc }

/-- Launching what acceptance lets through, while idle, with the S-box ready. -/
theorem inv_launch {cmd idx : Nibble} (hb : s.busy = false)
    (hok : acceptable ⟨cmd, idx⟩ s.keyValid) : (s.launch cmd idx).Inv := by
  obtain ⟨hready, -⟩ := (not_busy_iff s).1 hb
  exact { hinv with
    flightReady := fun _ => ⟨hready, rfl⟩
    flightAccepted := by rintro c ⟨rfl⟩; exact hok
    startUp := fun hr => by rw [launch_sboxReady, hready] at hr; cases hr }

theorem inv_accept (cmd idx : Nibble) : (accept cmd idx s).Inv := by
  rcases accept_cases cmd idx s with ⟨-, h⟩ | ⟨-, -, h⟩ | ⟨-, -, -, h⟩ | ⟨-, -, -, -, h⟩ |
    ⟨-, -, -, -, -, h⟩ | ⟨h0, hb, hr, hx, hk, h⟩ <;> rw [h]
  · exact hinv
  · exact inv_raiseError hinv (by decide)
  · exact inv_raiseError hinv (by decide)
  · exact inv_raiseError hinv (by decide)
  · exact inv_raiseError hinv (by decide)
  · exact inv_launch hinv hb ⟨code_range_of_not_isReserved h0 hr, hx, hk⟩

/-- Clearing DONE and ERR: DONE is 0 already where the invariant asks for it. -/
theorem inv_writeStatus (v : Word) : (s.writeStatus v).Inv := by
  have hdone : s.done = false → (s.writeStatus v).done = false := by
    intro h; rw [writeStatus_done, h, ite_self]
  rw [writeStatus_eq] at hdone ⊢
  exact { hinv with
    errCode := by dsimp only; split; exacts [by decide, hinv.errCode]
    flightReady := fun h => ⟨(hinv.flightReady h).1, hdone (hinv.flightReady h).2⟩
    startUp := fun h =>
      let ⟨hkey, hstate, hkv, hd⟩ := hinv.startUp h
      ⟨hkey, hstate, hkv, hdone hd⟩ }

/-- While idle the S-box is ready, so KEY and STATE may hold anything. -/
theorem inv_of_idle_data (hb : s.busy = false) (key state : Block) :
    State.Inv { s with key := key, state := state } := by
  obtain ⟨hready, -⟩ := (not_busy_iff s).1 hb
  exact { hinv with startUp := fun h => by rw [hready] at h; cases h }

theorem inv_writeRegister (r : Reg) (v : Word) : (writeRegister r v s).Inv := by
  rcases writeRegister_cases r v s with h | h | h | h | h | ⟨-, h⟩ | ⟨hb, k, -, h⟩ |
    ⟨hb, k, -, h⟩ <;> rw [h]
  · exact hinv
  · exact inv_writeStatus hinv v
  · exact { hinv with }
  · exact { hinv with }
  · exact { hinv with }
  · exact inv_raiseError hinv (by decide)
  · exact inv_of_idle_data hinv hb _ _
  · exact inv_of_idle_data hinv hb _ _

/-- After GEN_DONE the S-box is ready. -/
theorem inv_genDone : s.genDone.Inv :=
  { hinv with
    flightReady := fun h => ⟨rfl, (hinv.flightReady h).2⟩
    startUp := nofun }

/-- The end of a command, whatever its effect on STATE: nothing is in flight, and the S-box was
ready. -/
theorem inv_putState_finish (hready : s.sboxReady = true) (b : Block) : (s.putState b).finish.Inv :=
  { hinv with
    phasePresented := rfl
    flightReady := fun h => absurd rfl h
    flightAccepted := nofun
    startUp := fun h => by rw [finish_sboxReady, putState_sboxReady, hready] at h; cases h }

/-- The end of KEY_EXPAND: the schedule is that of KEY, which is its own round key 0. -/
theorem inv_putSchedule_finish (hready : s.sboxReady = true) :
    (s.putSchedule (keyExpansion s.key)).finish.Inv :=
  { inv_putState_finish hinv hready s.state with
    startUp := fun h => by rw [finish_sboxReady, putSchedule_sboxReady, hready] at h; cases h
    noKey := nofun
    schedule := fun _ => by rw [finish_rk, putSchedule_rk, keyExpansion_zero]
    flightAccepted := nofun }

theorem inv_cmdDone {c : InFlight} {t : State} (hready : s.sboxReady = true)
    (h : cmdDone c s = .next t) : t.Inv := by
  rcases cmdDone_cases h with ⟨-, rfl⟩ | ⟨-, b, rfl⟩
  · exact inv_putSchedule_finish hinv hready
  · exact inv_putState_finish hinv hready b

end Invariant

/-- RESET leads to the invariant from any state (70_reset_and_hazards.md R290). -/
theorem inv_resetHardware (s : State) : s.resetHardware.Inv :=
  { resetStateMeetsTheInvariant with }

/-- Settles O53: each kind of step, by the operation it is. -/
theorem everyStepKeepsTheInvariant : Obligations.EveryStepKeepsTheInvariant := by
  intro s t hinv h
  have hinv' : (s.withEvents s.events.tail).Inv := inv_withEvents hinv _
  rcases step_next h with ⟨off, -, rfl⟩ | ⟨v, -, rfl⟩ | ⟨off, v, -, -, rfl⟩ | ⟨-, -, rfl⟩ |
    ⟨c, -, hready, -, hdone⟩ | ⟨-, rfl⟩ | ⟨-, rfl⟩ | ⟨-, rfl⟩
  · exact inv_latch hinv' _
  · rw [withPhase_presented hinv'.phasePresented]
    exact inv_accept hinv' _ _
  · exact inv_writeRegister hinv' _ v
  · exact inv_genDone hinv'
  · exact inv_cmdDone hinv' hready hdone
  · exact inv_holdReset hinv'
  · exact inv_resetHardware _
  · exact hinv'

/-! ### What CMD_DONE depends on (30_encoding.md R101) -/

/-- Two states with the same KEY, STATE, schedule and KEY_VALID: all that the effect of a command
reads or writes (10_state.md R39). -/
structure SameData (s t : State) : Prop where
  key : t.key = s.key
  state : t.state = s.state
  rk : t.rk = s.rk
  keyValid : t.keyValid = s.keyValid

theorem SameData.refl (s : State) : SameData s s := ⟨rfl, rfl, rfl, rfl⟩

theorem SameData.trans {s t u : State} (hst : SameData s t) (htu : SameData t u) : SameData s u :=
  ⟨htu.key.trans hst.key, htu.state.trans hst.state, htu.rk.trans hst.rk,
    htu.keyValid.trans hst.keyValid⟩

/-- An effect whose results agree on the four registers where its arguments do. -/
def RespectsData (effect : State → State) : Prop :=
  ∀ s t, SameData s t → SameData (effect s) (effect t)

/-- The effects of the commands on STATE are functions of STATE and the schedule. -/
theorem respectsData_putState (f : Block → Schedule → Block) :
    RespectsData fun s => s.putState (f s.state s.rk) := fun s t h =>
  ⟨h.key, by rw [putState_state, putState_state, h.state, h.rk], h.rk, h.keyValid⟩

/-- The effect of KEY_EXPAND is a function of KEY. -/
theorem respectsData_putSchedule : RespectsData fun s => s.putSchedule (keyExpansion s.key) :=
  fun s t h => ⟨h.key, h.state, by rw [putSchedule_rk, putSchedule_rk, h.key], rfl⟩

/-- Every command but NOP has the life of the shared shape with an effect that respects the four
registers: `exec_shape`, with what the effect depends on. -/
theorem exec_respectsData : ∀ i : Instr,
    i = .nop ∨
    (∃ effect, RespectsData effect ∧ ∀ s, exec i s = runCommand i.code i.index effect s) ∨
    (∃ effect : RoundIndex → State → State, (∀ n, RespectsData (effect n)) ∧
      ∀ s, exec i s = runIndexed i.code i.index effect s)
  | .nop => .inl rfl
  | .keyExpand _ => .inr (.inl ⟨_, respectsData_putSchedule, fun _ => rfl⟩)
  | .encrypt _ => .inr (.inl ⟨_, respectsData_putState cipher, fun _ => rfl⟩)
  | .decrypt _ => .inr (.inl ⟨_, respectsData_putState invCipher, fun _ => rfl⟩)
  | .subBytes _ => .inr (.inl ⟨_, respectsData_putState fun b _ => subBytes b, fun _ => rfl⟩)
  | .shiftRows _ => .inr (.inl ⟨_, respectsData_putState fun b _ => shiftRows b, fun _ => rfl⟩)
  | .mixColumns _ => .inr (.inl ⟨_, respectsData_putState fun b _ => mixColumns b, fun _ => rfl⟩)
  | .addRoundKey _ =>
    .inr (.inr ⟨_, fun n => respectsData_putState fun b rk => addRoundKey b rk[n], fun _ => rfl⟩)
  | .invSubBytes _ => .inr (.inl ⟨_, respectsData_putState fun b _ => invSubBytes b, fun _ => rfl⟩)
  | .invShiftRows _ =>
    .inr (.inl ⟨_, respectsData_putState fun b _ => invShiftRows b, fun _ => rfl⟩)
  | .invMixColumns _ =>
    .inr (.inl ⟨_, respectsData_putState fun b _ => invMixColumns b, fun _ => rfl⟩)
  | .encRound _ =>
    .inr (.inr ⟨_, fun n => respectsData_putState fun b rk => encRound b rk n, fun _ => rfl⟩)
  | .decRound _ =>
    .inr (.inr ⟨_, fun n => respectsData_putState fun b rk => decRound b rk n, fun _ => rfl⟩)

/-- A command completes alike in two states that agree on the four registers. -/
theorem exec_sameData {i : Instr} {s t s' t' : State} (h : SameData s t)
    (hps : s.phase = .completing) (hpt : t.phase = .completing)
    (hs : exec i s = .next s') (ht : exec i t = .next t') : SameData s' t' := by
  have not_presented {u : State} (hu : u.phase = .completing) : u.phase ≠ .presented := by
    rw [hu]; nofun
  rcases exec_respectsData i with rfl | ⟨effect, hresp, he⟩ | ⟨effect, hresp, he⟩
  · cases hs
    cases ht
    exact h
  · obtain ⟨-, rfl⟩ :=
      (runCommand_next ((he s).symm.trans hs)).resolve_left fun hp => not_presented hps hp.1
    obtain ⟨-, rfl⟩ :=
      (runCommand_next ((he t).symm.trans ht)).resolve_left fun hp => not_presented hpt hp.1
    exact { hresp s t h with }
  · obtain ⟨-, n, hn, rfl⟩ :=
      (runIndexed_next ((he s).symm.trans hs)).resolve_left fun hp => not_presented hps hp.1
    obtain ⟨-, m, hm, rfl⟩ :=
      (runIndexed_next ((he t).symm.trans ht)).resolve_left fun hp => not_presented hpt hp.1
    obtain rfl : n = m := Option.some.inj (hn.symm.trans hm)
    exact { hresp n s t h with }

/-- CMD_DONE at a pair that acceptance lets through leaves the same data in two states that agree on
the four registers. -/
theorem cmdDone_sameData {c : InFlight} {kv : Bool} (hok : acceptable c kv) {s t s' t' : State}
    (h : SameData s t) (hs : cmdDone c s = .next s') (ht : cmdDone c t = .next t') :
    SameData s' t' := by
  obtain ⟨i, hd, hn, -, -⟩ := decodeFields_acceptable hok
  rw [cmdDone_of_decode hd hn] at hs ht
  exact exec_sameData (s := s.withPhase .completing) (t := t.withPhase .completing) { h with }
    rfl rfl hs ht

/-- CMD_DONE leaves the hardware idle with DONE set, if the S-box is ready. -/
theorem cmdDone_idle {c : InFlight} {s t : State} (hready : s.sboxReady = true)
    (h : cmdDone c s = .next t) : t.inflight = none ∧ t.done = true ∧ t.busy = false := by
  obtain ⟨hnone, hkeep⟩ := cmdDone_ends h
  obtain ⟨ht, -⟩ := cmdDone_next h
  exact ⟨hnone, by rw [ht], (not_busy_iff t).2 ⟨hkeep.trans hready, hnone⟩⟩

/-! ### The host while a command is in flight (30_encoding.md R101) -/

/-- `t` is `s` but for what the host's accesses can change while busy: the flags, CFG, the query
ports, and the value last read. -/
structure Undisturbed (s t : State) : Prop where
  data : SameData s t
  inflight : t.inflight = s.inflight
  rstN : t.rstN = s.rstN
  events : t.events = s.events

theorem Undisturbed.refl (s : State) : Undisturbed s s := ⟨.refl s, rfl, rfl, rfl⟩

theorem Undisturbed.trans {s t u : State} (hst : Undisturbed s t) (htu : Undisturbed t u) :
    Undisturbed s u :=
  ⟨hst.data.trans htu.data, htu.inflight.trans hst.inflight, htu.rstN.trans hst.rstN,
    htu.events.trans hst.events⟩

/-- The same events still to come, whatever they are. -/
theorem Undisturbed.withEvents {s t : State} (h : Undisturbed s t) (es : List Event) :
    Undisturbed (s.withEvents es) (t.withEvents es) :=
  ⟨{ h.data with }, h.inflight, h.rstN, rfl⟩

theorem undisturbed_raiseError (c : BitVec 3) (s : State) : Undisturbed s (s.raiseError c) :=
  ⟨⟨rfl, rfl, rfl, rfl⟩, rfl, rfl, rfl⟩

section Busy
variable {s : State} (hb : s.busy = true)
include hb

/-- While busy a command is refused, or it is NOP. -/
theorem accept_undisturbed (cmd idx : Nibble) : Undisturbed s (accept cmd idx s) := by
  by_cases h0 : cmd = 0
  · rw [h0, accept_zero]
    exact .refl s
  · rw [accept_busy h0 hb]
    exact undisturbed_raiseError errBusy s

/-- While busy a data write is refused, and the other registers hold no data. -/
theorem writeRegister_undisturbed (r : Reg) (v : Word) : Undisturbed s (writeRegister r v s) := by
  rcases writeRegister_cases r v s with h | h | h | h | h | ⟨-, h⟩ | ⟨hidle, -⟩ | ⟨hidle, -⟩
  · rw [h]
    exact .refl s
  · rw [h, writeStatus_eq]
    exact ⟨⟨rfl, rfl, rfl, rfl⟩, rfl, rfl, rfl⟩
  · rw [h]
    exact ⟨⟨rfl, rfl, rfl, rfl⟩, rfl, rfl, rfl⟩
  · rw [h]
    exact ⟨⟨rfl, rfl, rfl, rfl⟩, rfl, rfl, rfl⟩
  · rw [h]
    exact ⟨⟨rfl, rfl, rfl, rfl⟩, rfl, rfl, rfl⟩
  · rw [h]
    exact undisturbed_raiseError errWrBusy s
  · rw [hb] at hidle
    cases hidle
  · rw [hb] at hidle
    cases hidle

/-- A host step while busy goes on and disturbs nothing the command in flight depends on. -/
theorem hostStep_undisturbed (hrst : s.rstN = true) (a : BusAccess) :
    ∃ t, hostStep a s = .next t ∧ Undisturbed s t := by
  cases a with
  | read off => exact ⟨_, rfl, ⟨⟨rfl, rfl, rfl, rfl⟩, rfl, rfl, rfl⟩⟩
  | write off v =>
    refine ⟨_, (if_pos hrst).trans (busWrite_next off v s), ?_⟩
    split
    · have hphase : Undisturbed s (s.withPhase .presented) := ⟨⟨rfl, rfl, rfl, rfl⟩, rfl, rfl, rfl⟩
      exact hphase.trans (accept_undisturbed (s := s.withPhase .presented) hb _ _)
    · exact writeRegister_undisturbed hb _ v

end Busy

/-- A state with a command in flight is busy (10_state.md R25). -/
theorem busy_of_inflight {s : State} {c : InFlight} (hfl : s.inflight = some c) : s.busy = true :=
  (busy_iff s).2 (.inr (by rw [hfl]; nofun))

/-- Whatever the host does while a command is in flight, its accesses go on and disturb nothing that
command depends on. -/
theorem runSteps_host {c : InFlight} (rest : List Event) :
    ∀ (as : List BusAccess) {s : State}, s.Inv → s.rstN = true → s.inflight = some c →
    s.events = as.map .host ++ rest →
    ∃ t, t.Inv ∧ Undisturbed (s.withEvents rest) t ∧
      ∀ n, runSteps (as.length + n) s = runSteps n t
  | [], s, hinv, _, _, hev => by
    refine ⟨s, hinv, ⟨⟨rfl, rfl, rfl, rfl⟩, rfl, rfl, hev⟩, fun n => ?_⟩
    rw [List.length_nil, Nat.zero_add]
  | a :: as, s, hinv, hrst, hfl, hev => by
    have hstep : step s = hostStep a (s.withEvents (as.map .host ++ rest)) := by
      rw [step, takeStep, hev]
      rfl
    obtain ⟨t, ht, hun⟩ := hostStep_undisturbed (s := s.withEvents (as.map .host ++ rest))
      (busy_of_inflight (c := c) hfl) hrst a
    have hst : step s = .next t := hstep.trans ht
    obtain ⟨u, huinv, hu, hrun⟩ := runSteps_host rest as (everyStepKeepsTheInvariant s t hinv hst)
      (hun.rstN.trans hrst) (hun.inflight.trans hfl) hun.events
    refine ⟨u, huinv, (hun.withEvents rest).trans hu, fun n => ?_⟩
    rw [List.length_cons, Nat.add_right_comm, runSteps_succ hst, hrun n]

/-- With a command in flight and the Core's event next, one step is its CMD_DONE, which leaves the
hardware idle with DONE set. -/
theorem runSteps_one_cmdDone {s : State} {c : InFlight} {rest : List Event} (hinv : s.Inv)
    (hrst : s.rstN = true) (hfl : s.inflight = some c) (hev : s.events = .core :: rest) :
    ∃ t, runSteps 1 s = .next t ∧ cmdDone c (s.withEvents rest) = .next t ∧
      t.inflight = none ∧ t.done = true ∧ t.busy = false := by
  obtain ⟨hready, -⟩ := hinv.flightReady (by rw [hfl]; nofun)
  obtain ⟨t, ht⟩ := cmdDone_total (hinv.flightAccepted c hfl) (s.withEvents rest)
  have hstep : step s = .next t := by
    rw [step_of_core hev, coreStep_of_inflight (s := s.withEvents rest) hrst hready hfl, ht]
  exact ⟨t, runSteps_succ hstep, ht, cmdDone_idle (s := s.withEvents rest) hready ht⟩

/-- Settles O55: the host's accesses leave the four registers, and CMD_DONE depends on nothing
else. -/
theorem hostCannotDisturbTheCommandInFlight : Obligations.HostCannotDisturbTheCommandInFlight := by
  intro s as rest hinv hrst hfl
  obtain ⟨c, hc⟩ := Option.ne_none_iff_exists'.1 hfl
  obtain ⟨r, hrinv, hr, hrun⟩ := runSteps_host (.core :: rest) as
    (inv_withEvents hinv (as.map .host ++ .core :: rest)) hrst hc rfl
  obtain ⟨t, hrt, ht, hidle⟩ := runSteps_one_cmdDone hrinv (hr.rstN.trans hrst)
    (hr.inflight.trans hc) hr.events
  obtain ⟨u, hsu, hu, -⟩ := runSteps_one_cmdDone (inv_withEvents hinv (.core :: rest)) hrst hc rfl
  obtain ⟨hkey, hstate, hrk, hkv⟩ := cmdDone_sameData (hinv.flightAccepted c hc)
    (hr.withEvents rest).data hu ht
  exact ⟨t, u, (hrun 1).trans hrt, hsu, hkey, hstate, hrk, hkv, hidle⟩

end Sys2Proof.Machine.Laws
end

section
/-! SUPPORT. The field GF(2^8) (40_gf_sbox.md section 1): every byte comes from 0x01 by doubling and
exclusive OR, and `gmul` commutes with both, so that its laws need no table of products; the S-box
tables against it (R123, R128 to R130); the generator's walk (R125, R126), whose first byte has period
255; the two query ports (R132, R134) and GEN_DONE (R131). -/

namespace Sys2Proof.Machine.Laws

/-! ### The laws of `gmul` (40_gf_sbox.md R121, R122) -/

@[simp] theorem gmul_zero (a : Byte) : gmul a 0 = 0 := by simp [gmul, gmulStep]

@[simp] theorem gmul_one (a : Byte) : gmul a 1 = a := by simp [gmul, gmulStep]

/-- The product with 0x01 on the left adds up the single bits of `b`: checked for every byte, as the
start of the inductions below. -/
@[simp] theorem one_gmul : ∀ b : Byte, gmul 1 b = b := by decide +kernel

theorem gmul_two (a : Byte) : gmul a 2 = double a := by simp [gmul, gmulStep]

/-- Linear in the second operand. -/
theorem gmul_xor_right (a b c : Byte) : gmul a (b ^^^ c) = gmul a b ^^^ gmul a c := by
  have h := foldl_gmulStep_right b c [0, 1, 2, 3, 4, 5, 6, 7] a 0 0
  rwa [BitVec.xor_self] at h

/-- The loop commutes with doubling, since doubling is linear. -/
theorem foldl_gmulStep_double (b : Byte) (l : List Nat) (a r : Byte) :
    l.foldl (gmulStep b) (double a, double r) =
      (double (l.foldl (gmulStep b) (a, r)).1, double (l.foldl (gmulStep b) (a, r)).2) := by
  induction l generalizing a r with
  | nil => rfl
  | cons j l ih =>
    have hj : gmulStep b (double a, double r) j =
        (double (gmulStep b (a, r) j).1, double (gmulStep b (a, r) j).2) := by
      cases hb : b.getLsbD j <;> simp [gmulStep, hb, double_xor]
    rw [List.foldl_cons, List.foldl_cons, hj]
    exact ih _ _

theorem gmul_double_left (a b : Byte) : gmul (double a) b = double (gmul a b) :=
  congrArg Prod.snd (foldl_gmulStep_double b [0, 1, 2, 3, 4, 5, 6, 7] a 0)

/-- A byte is its upper seven bits, doubled, and its lowest bit. -/
theorem double_shift_xor_bit : ∀ a : Byte, double (a >>> 1) ^^^ (a &&& 1) = a := by
  decide +kernel

/-- The lowest bit of a byte. -/
theorem and_one_cases : ∀ a : Byte, a &&& 1 = 0 ∨ a &&& 1 = 1 := by
  decide +kernel

/-- Every byte comes from 0x01 by doubling and exclusive OR, its highest bit first. -/
theorem byte_induction {P : Byte → Prop} (one : P 1) (double : ∀ a, P a → P (double a))
    (xor : ∀ a b, P a → P b → P (a ^^^ b)) (a : Byte) : P a := by
  have zero : P 0 := xor 1 1 one one
  induction hn : a.toNat using Nat.strong_induction_on generalizing a with
  | _ n ih =>
    rcases eq_or_ne a 0 with rfl | ha
    · exact zero
    have hlt : (a >>> 1).toNat < n := by
      have hpos : a.toNat ≠ 0 := fun h => ha (BitVec.eq_of_toNat_eq h)
      simp only [BitVec.toNat_ushiftRight]
      omega
    have hbit : P (a &&& 1) := by
      rcases and_one_cases a with h | h <;> rw [h]
      exacts [zero, one]
    rw [← double_shift_xor_bit a]
    exact xor _ _ (double _ (ih _ hlt _ rfl)) hbit

theorem gmul_double_right (a b : Byte) : gmul a (double b) = double (gmul a b) := by
  induction a using byte_induction with
  | one => rw [one_gmul, one_gmul]
  | double a ih => rw [gmul_double_left, gmul_double_left, ih]
  | xor a a' ih ih' => rw [gmul_xor_left, gmul_xor_left, double_xor, ih, ih']

theorem gmul_comm (a b : Byte) : gmul a b = gmul b a := by
  induction a using byte_induction with
  | one => rw [one_gmul, gmul_one]
  | double a ih => rw [gmul_double_left, gmul_double_right, ih]
  | xor a a' ih ih' => rw [gmul_xor_left, gmul_xor_right, ih, ih']

theorem gmul_assoc (a b c : Byte) : gmul (gmul a b) c = gmul a (gmul b c) := by
  induction a using byte_induction with
  | one => rw [one_gmul, one_gmul]
  | double a ih => rw [gmul_double_left, gmul_double_left, gmul_double_left, ih]
  | xor a a' ih ih' => rw [gmul_xor_left, gmul_xor_left, gmul_xor_left, ih, ih']

@[simp] theorem zero_gmul (a : Byte) : gmul 0 a = 0 := by rw [gmul_comm, gmul_zero]

theorem double_eq_xor (a : Byte) :
    double a = (a <<< 1) ^^^ (if a.getLsbD 7 then 0x1B else 0x00) := by
  unfold double
  split
  · rfl
  · exact (BitVec.xor_zero).symm

/-! ### The inverse and the tables (40_gf_sbox.md R123, R124, R127 to R130, R133) -/

/-- The table of inverses, entry by entry (R133). -/
theorem gmul_ginv : ∀ {a : Byte}, a ≠ 0 → gmul a (ginv a) = 1 := by decide +kernel

/-- An inverse is unique: `b = b (a c) = (b a) c = c`. -/
theorem gmul_inverse_unique {a b c : Byte} (hb : gmul a b = 1) (hc : gmul a c = 1) : b = c :=
  calc
    b = gmul b (gmul a c) := by rw [hc, gmul_one]
    _ = gmul (gmul a b) c := by rw [← gmul_assoc, gmul_comm b a]
    _ = c := by rw [hb, one_gmul]

theorem gmul_eq_one_iff {a : Byte} (ha : a ≠ 0) (b : Byte) : gmul a b = 1 ↔ b = ginv a := by
  constructor
  · intro hb
    exact gmul_inverse_unique hb (gmul_ginv ha)
  · rintro rfl
    exact gmul_ginv ha

/-- The S-box table is the affine transform of the table of inverses, entry by entry (R128). -/
theorem sbox_eq_affine_ginv : ∀ x : Byte, sbox x = affine (ginv x) := by decide +kernel

/-- The inverse S-box table undoes the S-box table, entry by entry (R129). -/
@[simp] theorem invSbox_sbox : ∀ x : Byte, invSbox (sbox x) = x := by decide +kernel

/-- The S-box table undoes the inverse S-box table, entry by entry (R129). -/
@[simp] theorem sbox_invSbox : ∀ y : Byte, sbox (invSbox y) = y := by decide +kernel

/-- The S-box table has no fixed point and no complemented one, entry by entry (R130). -/
theorem sbox_ne : ∀ x : Byte, sbox x ≠ x ∧ sbox x ≠ x ^^^ 0xFF := by decide +kernel

/-- `rotl8` is the rotation of bit vectors. -/
theorem rotl8_eq_rotateLeft (q : Byte) {n : Nat} (hn : n < 8) : rotl8 q n = q.rotateLeft n := by
  rw [rotl8, BitVec.rotateLeft_def, Nat.mod_eq_of_lt hn]

/-! ### The generator's walk (40_gf_sbox.md R125, R126) -/

/-- The pair of the walk is a byte and its inverse, since 0xF6 is the inverse of 0x03. -/
theorem gmul_walk (k : Nat) : gmul (walk k).1 (walk k).2 = 1 := by
  induction k with
  | zero => exact gmul_one 1
  | succ k ih =>
    calc gmul (gmul (walk k).1 0x03) (gmul (walk k).2 0xF6)
      _ = gmul (gmul (walk k).1 (walk k).2) (gmul 0x03 0xF6) := by
        rw [gmul_assoc, ← gmul_assoc 0x03, gmul_comm 0x03, gmul_assoc (walk k).2, ← gmul_assoc]
      _ = 1 := by rw [ih]; decide

theorem walk_fst_ne_zero (k : Nat) : (walk k).1 ≠ 0 := by
  intro h
  have hk := gmul_walk k
  rw [h, zero_gmul] at hk
  exact absurd hk (by decide)

theorem ginv_walk (k : Nat) : ginv (walk k).1 = (walk k).2 :=
  ((gmul_eq_one_iff (walk_fst_ne_zero k) _).1 (gmul_walk k)).symm

theorem sbox_walk (k : Nat) : sbox (walk k).1 = affine (walk k).2 := by
  rw [sbox_eq_affine_ginv, ginv_walk]

theorem invSbox_walk (k : Nat) : invSbox (affine (walk k).2) = (walk k).1 := by
  rw [← sbox_walk, invSbox_sbox]

/-- One turn of the walk, for its first byte (R126). -/
def timesThree (p : Byte) : Byte := gmul p 0x03

theorem walk_fst (k : Nat) : (walk k).1 = timesThree^[k] 1 := by
  induction k with
  | zero => rfl
  | succ k ih => rw [Function.iterate_succ_apply', ← ih]; rfl

theorem walk_255 : walk 255 = (0x01, 0x01) := by decide +kernel

/-- A proper divisor of 255 divides one of its quotients by 3, 5 and 17. -/
theorem dvd_255_cases {d : Nat} (h : d ∣ 255) : d = 255 ∨ d ∣ 85 ∨ d ∣ 51 ∨ d ∣ 15 := by
  have hall : ∀ d < 256, d ∣ 255 → d = 255 ∨ d ∣ 85 ∨ d ∣ 51 ∨ d ∣ 15 := by decide +kernel
  exact hall d (Nat.lt_succ_of_le (Nat.le_of_dvd (by decide) h)) h

/-- 3 has order 255: its powers 85, 51 and 15 are not 1 (R125). -/
theorem minimalPeriod_timesThree : Function.minimalPeriod timesThree 1 = 255 := by
  have hper : ∀ n, Function.minimalPeriod timesThree 1 ∣ n ↔ (walk n).1 = 1 := fun n => by
    rw [← Function.isPeriodicPt_iff_minimalPeriod_dvd, Function.IsPeriodicPt, Function.IsFixedPt,
      walk_fst]
  have h255 := (hper 255).2 (congrArg Prod.fst walk_255)
  rcases dvd_255_cases h255 with h | h | h | h
  · exact h
  · exact absurd ((hper 85).1 h) (by decide +kernel)
  · exact absurd ((hper 51).1 h) (by decide +kernel)
  · exact absurd ((hper 15).1 h) (by decide +kernel)

/-- The turns 1 to 255 give different bytes, since they are less than a period apart. -/
theorem walk_fst_injOn : Set.InjOn (fun k => (walk k).1) (Finset.Icc 1 255) := by
  intro j hj k hk h
  simp only [Finset.coe_Icc, Set.mem_Icc] at hj hk
  have hmod : ∀ n, timesThree^[n % 255] 1 = (walk n).1 := fun n => by
    rw [walk_fst, ← minimalPeriod_timesThree, Function.iterate_mod_minimalPeriod_eq]
  have hlt : ∀ n, n % 255 < Function.minimalPeriod timesThree 1 := fun n => by
    rw [minimalPeriod_timesThree]
    exact Nat.mod_lt n (by decide)
  have hjk : j % 255 = k % 255 :=
    (Function.iterate_eq_iterate_iff_of_lt_minimalPeriod (hlt j) (hlt k)).1
      ((hmod j).trans (h.trans (hmod k).symm))
  omega

/-- The value of a non-zero byte is among 1 to 255. -/
theorem toNat_mem_Icc {x : Byte} (hx : x ≠ 0) : x.toNat ∈ Finset.Icc 1 255 := by
  have hpos : x.toNat ≠ 0 := fun h => hx (BitVec.eq_of_toNat_eq h)
  have hlt := x.isLt
  rw [Finset.mem_Icc]
  omega

/-- The turns 1 to 255 visit every non-zero byte: they give 255 different ones. -/
theorem walk_fst_surj {x : Byte} (hx : x ≠ 0) : ∃ k, (1 ≤ k ∧ k ≤ 255) ∧ (walk k).1 = x := by
  have hsurj : Set.SurjOn (fun k => (walk k).1.toNat) (Finset.Icc 1 255) (Finset.Icc 1 255) :=
    Finset.surjOn_of_injOn_of_card_le _ (fun k _ => toNat_mem_Icc (walk_fst_ne_zero k))
      (fun _ hj _ hk h => walk_fst_injOn hj hk (BitVec.eq_of_toNat_eq h)) le_rfl
  obtain ⟨k, hk, hkx⟩ := hsurj (toNat_mem_Icc hx)
  exact ⟨k, Finset.mem_Icc.1 hk, BitVec.eq_of_toNat_eq hkx⟩

/-! ### The query ports and GEN_DONE (40_gf_sbox.md R131, R132, R134) -/

theorem busWrite_sboxq (v : Word) (s : State) : busWrite 0x04 v s = .next (s.setSboxq v) := rfl

theorem busWrite_gfmul (v : Word) (s : State) : busWrite 0x05 v s = .next (s.setGfmul v) := rfl

/-- Before GEN_DONE the SBOXQ port answers the queried byte alone. -/
theorem busRead_sboxq_of_not_ready {s : State} (h : s.sboxReady = false) (v : Word) :
    busRead 0x04 (s.setSboxq v) = v &&& 0xFF :=
  calc busRead 0x04 (s.setSboxq v)
    _ = (v.extractLsb' 0 8).setWidth 32 := if_neg (by simp [h])
    _ = v &&& 0xFF := by rw [← packBytes_zero, ← packBytes_and_0xFF, packBytes_extractLsb']

/-- After GEN_DONE the SBOXQ port answers the three tables at the queried byte. -/
theorem busRead_sboxq_of_ready {s : State} (h : s.sboxReady = true) (v : Word) :
    busRead 0x04 (s.setSboxq v) = packBytes (ginv (v.extractLsb' 0 8))
      (invSbox (v.extractLsb' 0 8)) (sbox (v.extractLsb' 0 8)) (v.extractLsb' 0 8) :=
  if_pos h

/-- The GFMUL port answers the product and the two operands at any time. -/
theorem busRead_gfmul_setGfmul (v : Word) (s : State) :
    busRead 0x05 (s.setGfmul v) = packBytes 0 (gmul (v.extractLsb' 0 8) (v.extractLsb' 8 8))
      (v.extractLsb' 8 8) (v.extractLsb' 0 8) := rfl

/-- The low half of a word is its bytes 1 and 0. -/
theorem low_half_eq_append (v : Word) :
    v.extractLsb' 0 16 = v.extractLsb' 8 8 ++ v.extractLsb' 0 8 :=
  (BitVec.extractLsb'_append_extractLsb'_eq_extractLsb' (x := v) (start₁ := 0) (len₁ := 8)
    (len₂ := 8) rfl).symm

/-- While `sbox_ready = 0` the Core's step is GEN_DONE. -/
theorem coreStep_of_not_ready {s : State} (hrst : s.rstN = true) (hready : s.sboxReady = false) :
    coreStep s = .next s.genDone := by
  simp [coreStep, hrst, hready]

/-! ### The obligations -/

/-- Settles O19: commutativity and associativity by `byte_induction`, the inverse from its table. -/
theorem gmulLaws : Obligations.GmulLaws :=
  ⟨gmul_zero, gmul_one, gmul_comm, gmul_assoc, gmul_xor_right, fun a ha =>
    ⟨ginv a, gmul_ginv ha, fun c => (gmul_eq_one_iff ha c).1⟩⟩

/-- Settles O23: the pair stays a byte and its inverse, so each turn writes the tables' entries, and
the order of 3 gives each index its one turn. -/
theorem generatorWalkFillsTheTables : Obligations.GeneratorWalkFillsTheTables := by
  refine ⟨rfl, walk_255, fun _ => rfl, fun k _ _ => ⟨ginv_walk k, sbox_walk k, invSbox_walk k⟩,
    fun x hx => ?_, rfl, rfl, rfl, by decide, rfl, by decide, rfl, by decide, rfl, rfl⟩
  obtain ⟨k, ⟨hk1, hk255⟩, hkx⟩ := walk_fst_surj hx
  refine ⟨k, ⟨hk1, hk255, hkx⟩, fun j hj1 hj255 hjx => ?_⟩
  exact walk_fst_injOn (Finset.mem_Icc.2 ⟨hj1, hj255⟩) (Finset.mem_Icc.2 ⟨hk1, hk255⟩)
    (hjx.trans hkx.symm)

/-- Settles O20: multiplying by 0x02 is one doubling. -/
theorem xtimeIsDoubling : Obligations.XtimeIsDoubling :=
  ⟨fun a => ⟨rfl, (gmul_two a).trans (double_eq_xor a)⟩, by decide, by decide, by decide⟩

/-- Settles O21: the table gives an inverse, and inverses are unique. -/
theorem ginvIsTheUniqueInverse : Obligations.GinvIsTheUniqueInverse :=
  ⟨fun _ b ha => gmul_eq_one_iff ha b, rfl, sbox_eq_affine_ginv⟩

/-- Settles O22: each `rotl8` is a rotation. -/
theorem affineTransform : Obligations.AffineTransform := by
  refine ⟨fun q => ?_, by decide, by decide, by decide, by decide⟩
  rw [affine, rotl8_eq_rotateLeft q (by decide), rotl8_eq_rotateLeft q (by decide),
    rotl8_eq_rotateLeft q (by decide), rotl8_eq_rotateLeft q (by decide)]

/-- Settles O24: S and IS undo each other, so S is a permutation. -/
theorem sboxIsAPermutationWithoutFixedPoints : Obligations.SboxIsAPermutationWithoutFixedPoints :=
  ⟨fun _ _ h => Function.LeftInverse.injective invSbox_sbox h,
    Function.RightInverse.surjective sbox_invSbox, invSbox_sbox, sbox_invSbox, sbox_ne⟩

/-- Settles O25: each port is read at the state that its write leaves, byte by byte. -/
theorem queryPortsAnswer : Obligations.QueryPortsAnswer := by
  refine ⟨fun s v => ⟨_, busWrite_sboxq v s, fun hr => ?_, fun hr => ?_⟩,
    fun s v => ⟨_, busWrite_gfmul v s, ?_⟩, fun s hr t ht => ?_, fun s t ht => ?_⟩
  · exact busRead_sboxq_of_not_ready hr v
  · rw [busRead_sboxq_of_ready hr]
    exact packBytes_bytes _ _ _ _
  · obtain ⟨h3, h2, h1, h0⟩ := packBytes_bytes 0 (gmul (v.extractLsb' 0 8) (v.extractLsb' 8 8))
      (v.extractLsb' 8 8) (v.extractLsb' 0 8)
    rw [busRead_gfmul_setGfmul, low_half_eq_append, low_half_eq_append v]
    exact ⟨h3, h2, by rw [h1, h0]⟩
  · rw [busWrite_sboxq] at ht
    cases ht
    rw [busRead_sboxq_of_ready hr]
    decide
  · rw [busWrite_gfmul] at ht
    cases ht
    rw [busRead_gfmul_setGfmul]
    decide

/-- Settles O45: the Core's step is GEN_DONE, at the state with the Core's event taken off, or at the
state itself. -/
theorem genDoneEndsStartUp : Obligations.GenDoneEndsStartUp := by
  intro s hrst hready
  constructor
  · intro rest hev
    rw [step_of_core hev, coreStep_of_not_ready (s := s.withEvents rest) hrst hready]
    rfl
  · intro hev
    rw [step_of_no_event hev, coreStep_of_not_ready hrst hready]
    rfl

end Sys2Proof.Machine.Laws
end

section
/-! SUPPORT. The key schedule (41_key_schedule.md): each round key from the one before, by columns and
by bus words (R155), the doubling of the round constants (R154), and KEY_EXPAND's completion (R156). -/

namespace Sys2Proof.Machine.Laws

/-! ### The round constants -/

/-- Each round constant is the double of the one before; 0x80 doubles to 0x1B (R154). -/
theorem rcon_succ : ∀ j < 9, rcon (j + 1) = double (rcon j) := by decide

/-! ### The round keys -/

/-- Round key `j + 1` comes from round key `j` and `RCON[j]` (R155). -/
theorem keyExpansion_succ (key : Block) {j : Nat} (hj : j + 1 < 11) :
    (keyExpansion key)[j + 1] = nextRoundKey (rcon j) (keyExpansion key)[j] := by
  simp only [keyExpansion, Vector.getElem_ofFn, roundKey]

/-- The round constant enters the transformed column by an exclusive OR of columns (R155). -/
theorem scheduleCore_eq_xor (c : Byte) (t : Column) :
    scheduleCore c t = (subWord (rotWord t)).xor ⟨c, 0, 0, 0⟩ := by
  simp [scheduleCore, Column.xor]

/-- A byte in row 0 stands in bits 31:24 of the bus word (20_memory.md R62). -/
theorem word_row_zero (c : Byte) : Column.word ⟨c, 0, 0, 0⟩ = c.setWidth 32 <<< 24 := by
  simp [Column.word, packBytes]

/-- A column that is an exclusive OR of columns has the exclusive OR of their bus words. -/
theorem word_eq_xor_of_col_eq_xor {w p : Block} {k j : Fin 4}
    (h : w.col k = (p.col k).xor (w.col j)) : w.word k = p.word k ^^^ w.word j :=
  (congrArg Column.word h).trans (word_xor _ _)

section NextRoundKey
variable (c : Byte) (p : Block)

theorem nextRoundKey_col_zero :
    (nextRoundKey c p).col 0 = (p.col 0).xor (scheduleCore c (p.col 3)) := rfl

theorem nextRoundKey_col_one :
    (nextRoundKey c p).col 1 = (p.col 1).xor ((nextRoundKey c p).col 0) := rfl

theorem nextRoundKey_col_two :
    (nextRoundKey c p).col 2 = (p.col 2).xor ((nextRoundKey c p).col 1) := rfl

theorem nextRoundKey_col_three :
    (nextRoundKey c p).col 3 = (p.col 3).xor ((nextRoundKey c p).col 2) := rfl

theorem nextRoundKey_word_zero : (nextRoundKey c p).word 0 =
    p.word 0 ^^^ (subWord (rotWord (p.col 3))).word ^^^ (c.setWidth 32 <<< 24) := by
  rw [Block.word, nextRoundKey_col_zero, scheduleCore_eq_xor, word_xor, word_xor, word_row_zero,
    BitVec.xor_assoc, Block.word]

end NextRoundKey

/-! ### The completion of KEY_EXPAND -/

/-- The life of a command, completing: its effect and the end of CMD_DONE. -/
theorem runCommand_completing {s : State} (hp : s.phase = .completing) (cmd idx : Nibble)
    (effect : State → State) : runCommand cmd idx effect s = .next (effect s).finish := by
  rw [runCommand, hp]

/-! ### The obligations -/

/-- Settles O26: each round key is `nextRoundKey` of the one before, and bus words follow columns. -/
theorem keyScheduleRecurrence : Obligations.KeyScheduleRecurrence := by
  refine fun key => ⟨keyExpansion_zero key, fun t => ⟨rfl, rfl⟩, fun i h1 h10 => ?_⟩
  obtain ⟨j, rfl⟩ := Nat.exists_eq_add_of_le' h1
  simp only [Nat.add_sub_cancel, keyExpansion_succ key (Nat.lt_succ_of_le h10)]
  exact ⟨nextRoundKey_col_zero _ _, nextRoundKey_col_one _ _, nextRoundKey_col_two _ _,
    nextRoundKey_col_three _ _, nextRoundKey_word_zero _ _,
    word_eq_xor_of_col_eq_xor (nextRoundKey_col_one _ _),
    word_eq_xor_of_col_eq_xor (nextRoundKey_col_two _ _),
    word_eq_xor_of_col_eq_xor (nextRoundKey_col_three _ _)⟩

/-- Settles O16: completing, KEY_EXPAND puts the schedule of KEY and ends. -/
theorem keyExpandCompletes : Obligations.KeyExpandCompletes :=
  fun _ _ hp => runCommand_completing hp _ _ _

/-- Settles O27: the table is as listed, and multiplying by 0x02 is one doubling. -/
theorem roundConstants : Obligations.RoundConstants :=
  ⟨rfl, rfl, fun j hj => (rcon_succ j hj).trans (gmul_two (rcon j)).symm⟩

end Sys2Proof.Machine.Laws
end

section
/-! SUPPORT. The round functions (42_round_transform.md, 43_round_inverse.md): the functions on
every byte, by cells and by flat bytes; the two shifts and the two column transforms, by cells; the
single rounds, index by index; and the completion of the indexed commands (30_encoding.md R101). -/

namespace Sys2Proof.Machine.Laws

/-! ### Functions on every byte, bytewise exclusive OR, functions on every column -/

@[simp] theorem row_map (f : Byte → Byte) (t : Column) (r : Fin 4) :
    (t.map f).row r = f (t.row r) := by
  fin_cases r <;> rfl

@[simp] theorem col_map (f : Byte → Byte) (b : Block) (c : Fin 4) :
    (b.map f).col c = (b.col c).map f := by
  fin_cases c <;> rfl

@[simp] theorem cell_map (f : Byte → Byte) (b : Block) (r c : Fin 4) :
    (b.map f).cell r c = f (b.cell r c) := by
  rw [Block.cell, col_map, row_map, Block.cell]

@[simp] theorem byte_map (f : Byte → Byte) (b : Block) (i : Fin 16) :
    (b.map f).byte i = f (b.byte i) :=
  cell_map f b _ _

@[simp] theorem row_xor (t u : Column) (r : Fin 4) : (t.xor u).row r = t.row r ^^^ u.row r := by
  fin_cases r <;> rfl

@[simp] theorem col_xor (b k : Block) (c : Fin 4) : (b.xor k).col c = (b.col c).xor (k.col c) := by
  fin_cases c <;> rfl

@[simp] theorem cell_xor (b k : Block) (r c : Fin 4) :
    (b.xor k).cell r c = b.cell r c ^^^ k.cell r c := by
  rw [Block.cell, col_xor, row_xor, Block.cell, Block.cell]

@[simp] theorem byte_xor (b k : Block) (i : Fin 16) : (b.xor k).byte i = b.byte i ^^^ k.byte i :=
  cell_xor b k _ _

@[simp] theorem col_mapCols (f : Column → Column) (b : Block) (c : Fin 4) :
    (b.mapCols f).col c = f (b.col c) := by
  fin_cases c <;> rfl

/-- A transform of columns takes the cells of a column from that column alone. -/
theorem cell_mapCols (f : Column → Column) (b : Block) (r c : Fin 4) :
    (b.mapCols f).cell r c = (f (b.col c)).row r := by
  rw [Block.cell, col_mapCols]

/-! ### The shifts (R172, R202) -/

theorem cell_shiftRows (b : Block) (r c : Fin 4) : (shiftRows b).cell r c = b.cell r (c + r) := by
  fin_cases r <;> fin_cases c <;> rfl

theorem cell_invShiftRows (b : Block) (r c : Fin 4) :
    (invShiftRows b).cell r c = b.cell r (c - r) := by
  fin_cases r <;> fin_cases c <;> rfl

@[simp] theorem invShiftRows_shiftRows (b : Block) : invShiftRows (shiftRows b) = b := rfl

@[simp] theorem shiftRows_invShiftRows (b : Block) : shiftRows (invShiftRows b) = b := rfl

/-! ### The single rounds (R178, R206) -/

section Rounds
variable (b : Block) (rk : Schedule)

theorem encRound_zero : encRound b rk 0 = addRoundKey b rk[0] := if_pos rfl

theorem encRound_ten : encRound b rk 10 = addRoundKey (shiftRows (subBytes b)) rk[10] :=
  (if_neg (by decide)).trans (if_pos rfl)

theorem encRound_between {i : RoundIndex} (h0 : i ≠ 0) (h10 : i ≠ 10) :
    encRound b rk i = addRoundKey (mixColumns (shiftRows (subBytes b))) rk[i] := by
  rw [encRound, if_neg h0, if_neg h10]

theorem decRound_ten : decRound b rk 10 = addRoundKey b rk[10] := if_pos rfl

theorem decRound_zero : decRound b rk 0 = addRoundKey (invSubBytes (invShiftRows b)) rk[0] :=
  (if_neg (by decide)).trans (if_pos rfl)

theorem decRound_between {i : RoundIndex} (h0 : i ≠ 0) (h10 : i ≠ 10) :
    decRound b rk i = invMixColumns (addRoundKey (invSubBytes (invShiftRows b)) rk[i]) := by
  rw [decRound, if_neg h10, if_neg h0]

end Rounds

/-! ### The completion of the indexed commands -/

/-- The IDX field that a round index is written to stands for it (30_encoding.md R92). -/
theorem roundIndex_ofNat (i : RoundIndex) : roundIndex (BitVec.ofNat 4 i.val) = some i := by
  have hval : (BitVec.ofNat 4 i.val).toNat = i.val :=
    Nat.mod_eq_of_lt (by omega)
  rw [roundIndex_of_legal (by omega)]
  exact congrArg some (Fin.ext hval)

/-- The life of an indexed command, completing at a legal index: its effect and the end of
CMD_DONE. -/
theorem runIndexed_completing {s : State} (hp : s.phase = .completing) (cmd : Nibble)
    (i : RoundIndex) (effect : RoundIndex → State → State) :
    runIndexed cmd (BitVec.ofNat 4 i.val) effect s = .next (effect i s).finish := by
  rw [runIndexed, hp, roundIndex_ofNat]

/-! ### The obligations -/

/-- Settles O13: completing, each of the six puts its function of STATE and ends. -/
theorem stateCommandsComplete : Obligations.StateCommandsComplete :=
  fun _ _ hp => ⟨runCommand_completing hp _ _ _, runCommand_completing hp _ _ _,
    runCommand_completing hp _ _ _, runCommand_completing hp _ _ _,
    runCommand_completing hp _ _ _, runCommand_completing hp _ _ _⟩

/-- Settles O15: completing at a legal index, each of the three puts its function of STATE and the
schedule and ends. -/
theorem indexedCommandsComplete : Obligations.IndexedCommandsComplete :=
  fun i _ hp => ⟨runIndexed_completing hp _ i _, runIndexed_completing hp _ i _,
    runIndexed_completing hp _ i _⟩

/-- Settles O28: SubBytes and InvSubBytes act on every byte, AddRoundKey is the exclusive OR of
blocks, and the shifts permute cells. -/
theorem roundStepsByteByByte : Obligations.RoundStepsByteByByte := by
  refine fun b k => ⟨byte_map sbox b, cell_shiftRows b, byte_xor b k, byte_map invSbox b,
    cell_invShiftRows b, invShiftRows_shiftRows b, shiftRows_invShiftRows b, fun r c => ?_⟩
  simp only [← byte_eq_cell, Nat.add_comm]

/-- Settles O29: a row of a column transform, at any column, is that row of the transformed
column. -/
theorem mixColumnsFormulas : Obligations.MixColumnsFormulas := by
  intro b c
  have hmix (r : Fin 4) : (mixColumns b).cell r c = (mixColumn (b.col c)).row r :=
    cell_mapCols mixColumn b r c
  have hinv (r : Fin 4) : (invMixColumns b).cell r c = (invMixColumn (b.col c)).row r :=
    cell_mapCols invMixColumn b r c
  exact ⟨hmix 0, hmix 1, hmix 2, hmix 3, hinv 0, hinv 1, hinv 2, hinv 3⟩

/-- Settles O30: the two ends, and an index from 1 to 9 is neither of them. -/
theorem roundsByIndex : Obligations.RoundsByIndex := by
  refine fun b rk => ⟨encRound_zero b rk, encRound_ten b rk, decRound_ten b rk, decRound_zero b rk,
    fun i h1 h9 => ?_⟩
  have h0 : i ≠ 0 := by rintro rfl; exact absurd h1 (by decide)
  have h10 : i ≠ 10 := by rintro rfl; exact absurd h9 (by decide)
  exact ⟨encRound_between b rk h0 h10, decRound_between b rk h0 h10⟩

end Sys2Proof.Machine.Laws
end

section
/-! SUPPORT. The steps of a round are undone by their inverses (43_round_inverse.md R208). A column
stands for a polynomial over GF(2^8), row `i` the coefficient of `x^i`, and the two column
transforms are the products with two polynomials that are inverse to each other modulo `x^4 + 1`. -/

namespace Sys2Proof.Machine.Laws

/-! ### Columns as polynomials (42_round_transform.md R174, 43_round_inverse.md R204) -/

/-- The product of two columns as polynomials modulo `x^4 + 1`: the circulant of `p`, applied to
`t`. -/
def polyMul (p t : Column) : Column where
  r0 := gmul p.r0 t.r0 ^^^ gmul p.r3 t.r1 ^^^ gmul p.r2 t.r2 ^^^ gmul p.r1 t.r3
  r1 := gmul p.r1 t.r0 ^^^ gmul p.r0 t.r1 ^^^ gmul p.r3 t.r2 ^^^ gmul p.r2 t.r3
  r2 := gmul p.r2 t.r0 ^^^ gmul p.r1 t.r1 ^^^ gmul p.r0 t.r2 ^^^ gmul p.r3 t.r3
  r3 := gmul p.r3 t.r0 ^^^ gmul p.r2 t.r1 ^^^ gmul p.r1 t.r2 ^^^ gmul p.r0 t.r3

/-- The polynomial 1. -/
def polyOne : Column := ⟨1, 0, 0, 0⟩

/-- `3 x^3 + x^2 + x + 2`, the first column of the circulant of R174. -/
def mixPoly : Column := ⟨2, 1, 1, 3⟩

/-- `11 x^3 + 13 x^2 + 9 x + 14`, the first column of the circulant of R204. -/
def invMixPoly : Column := ⟨14, 9, 13, 11⟩

theorem mixColumn_eq_polyMul (t : Column) : mixColumn t = polyMul mixPoly t := by
  simp only [mixColumn, polyMul, mixPoly, one_gmul]

theorem invMixColumn_eq_polyMul (t : Column) : invMixColumn t = polyMul invMixPoly t := rfl

@[simp] theorem polyOne_polyMul (t : Column) : polyMul polyOne t = t := by
  simp only [polyMul, polyOne, one_gmul, zero_gmul]
  simp only [BitVec.ofNat_eq_ofNat, BitVec.xor_zero, BitVec.zero_xor]

/-- The product is associative, since `gmul` is associative and linear in each operand. -/
theorem polyMul_assoc (p q t : Column) : polyMul (polyMul p q) t = polyMul p (polyMul q t) := by
  simp only [polyMul, gmul_xor_left, gmul_xor_right, gmul_assoc, Column.mk.injEq]
  refine ⟨?_, ?_, ?_, ?_⟩ <;> ac_rfl

/-- The product with a polynomial is undone by the product with an inverse of it. -/
theorem polyMul_cancel {p q : Column} (h : polyMul p q = polyOne) (t : Column) :
    polyMul p (polyMul q t) = t := by
  rw [← polyMul_assoc, h, polyOne_polyMul]

theorem polyMul_invMixPoly_mixPoly : polyMul invMixPoly mixPoly = polyOne := by decide

theorem polyMul_mixPoly_invMixPoly : polyMul mixPoly invMixPoly = polyOne := by decide

theorem invMixColumn_mixColumn : Function.LeftInverse invMixColumn mixColumn := fun t => by
  rw [mixColumn_eq_polyMul, invMixColumn_eq_polyMul, polyMul_cancel polyMul_invMixPoly_mixPoly]

theorem mixColumn_invMixColumn : Function.LeftInverse mixColumn invMixColumn := fun t => by
  rw [mixColumn_eq_polyMul, invMixColumn_eq_polyMul, polyMul_cancel polyMul_mixPoly_invMixPoly]

/-! ### The steps on blocks (R208) -/

theorem map_leftInverse {f g : Byte → Byte} (h : Function.LeftInverse g f) :
    Function.LeftInverse (Block.map g) (Block.map f) := fun b => by
  simp only [Block.map, Column.map, h _]

theorem mapCols_leftInverse {f g : Column → Column} (h : Function.LeftInverse g f) :
    Function.LeftInverse (Block.mapCols g) (Block.mapCols f) := fun b => by
  simp only [Block.mapCols, h _]

@[simp] theorem invSubBytes_subBytes (b : Block) : invSubBytes (subBytes b) = b :=
  map_leftInverse invSbox_sbox b

@[simp] theorem invMixColumns_mixColumns (b : Block) : invMixColumns (mixColumns b) = b :=
  mapCols_leftInverse invMixColumn_mixColumn b

@[simp] theorem mixColumns_invMixColumns (b : Block) : mixColumns (invMixColumns b) = b :=
  mapCols_leftInverse mixColumn_invMixColumn b

@[simp] theorem addRoundKey_addRoundKey (b k : Block) : addRoundKey (addRoundKey b k) k = b := by
  simp only [addRoundKey, Block.xor, Column.xor, BitVec.xor_assoc, BitVec.xor_self, BitVec.xor_zero]

/-! ### The obligation -/

/-- Settles O31: each step by its own law; the S-box tables and the two shifts undo each other by
the laws of R129 and R202 above. -/
theorem inverseStepLaws : Obligations.InverseStepLaws :=
  fun b k => ⟨invSubBytes_subBytes b, invShiftRows_shiftRows b, invMixColumns_mixColumns b,
    mixColumns_invMixColumns b, addRoundKey_addRoundKey b k⟩

end Sys2Proof.Machine.Laws
end

section
/-! SUPPORT. The block cipher (44_block_cipher.md): its two pipelines as their rounds (R236, R237),
which undo each other (R235); and the commands of an idle machine with a schedule, each issued by a
CTRL write and completed before the next (30_encoding.md R98, R101). -/

namespace Sys2Proof.Machine.Laws

/-! ### The pipelines as their rounds (R231, R233, R236, R237) -/

/-- The nine rounds that are alike; the first and the last round of a pipeline differ from them. -/
def middleRounds : List RoundIndex := [1, 2, 3, 4, 5, 6, 7, 8, 9]

theorem finRange_eleven : List.finRange 11 = 0 :: (middleRounds ++ [10]) := by decide

theorem ne_of_mem_middleRounds : ∀ {i : RoundIndex}, i ∈ middleRounds → i ≠ 0 ∧ i ≠ 10 := by
  decide

section Pipelines
variable (b : Block) (rk : Schedule)

theorem cipher_eq_encRounds : cipher b rk =
    encRound (middleRounds.foldl (fun b i => encRound b rk i) (encRound b rk 0)) rk 10 := rfl

theorem invCipher_eq_decRounds : invCipher b rk =
    decRound (middleRounds.reverse.foldl (fun b i => decRound b rk i) (decRound b rk 10)) rk 0 :=
  rfl

theorem cipher_eq_foldl_encRound :
    cipher b rk = (List.finRange 11).foldl (fun b i => encRound b rk i) b := by
  rw [finRange_eleven, List.foldl_cons, List.foldl_concat, cipher_eq_encRounds]

theorem invCipher_eq_foldl_decRound :
    invCipher b rk = (List.finRange 11).reverse.foldl (fun b i => decRound b rk i) b := by
  rw [finRange_eleven, List.reverse_cons, List.reverse_concat, List.cons_append, List.foldl_cons,
    List.foldl_concat, invCipher_eq_decRounds]

end Pipelines

/-! ### The pipelines undo each other (R235) -/

@[simp] theorem subBytes_invSubBytes (b : Block) : subBytes (invSubBytes b) = b :=
  map_leftInverse sbox_invSbox b

/-- The two pipelines are cut into rounds at different places, so a round of the one undoes a round
of the other only under what is left of its neighbour, `c`. -/
theorem foldl_reverse_foldl {α β : Type} {f g : β → α → β} {c : β → β} {l : List α}
    (h : ∀ i ∈ l, ∀ b, g (c (f b i)) i = c b) (b : β) :
    l.reverse.foldl g (c (l.foldl f b)) = c b := by
  induction l generalizing b with
  | nil => rfl
  | cons i l ih =>
    rw [List.reverse_cons, List.foldl_concat, List.foldl_cons,
      ih (fun j hj => h j (List.mem_cons_of_mem i hj)), h i List.mem_cons_self]

section RoundTrip
variable (b : Block) (rk : Schedule)

/-! Decryption after encryption, round by round, from the last round key to the first. -/

theorem decRound_encRound_ten :
    decRound (encRound b rk 10) rk 10 = shiftRows (subBytes b) := by
  rw [decRound_ten, encRound_ten, addRoundKey_addRoundKey]

theorem decRound_encRound_between {i : RoundIndex} (hi : i ∈ middleRounds) :
    decRound (shiftRows (subBytes (encRound b rk i))) rk i = shiftRows (subBytes b) := by
  obtain ⟨h0, h10⟩ := ne_of_mem_middleRounds hi
  rw [decRound_between _ _ h0 h10, encRound_between _ _ h0 h10]
  simp

theorem decRound_encRound_zero :
    decRound (shiftRows (subBytes (encRound b rk 0))) rk 0 = b := by
  rw [decRound_zero, encRound_zero]
  simp

theorem invCipher_cipher : invCipher (cipher b rk) rk = b := by
  have hmiddle := foldl_reverse_foldl (f := fun b i => encRound b rk i)
    (g := fun b i => decRound b rk i) (c := fun b => shiftRows (subBytes b))
    (fun _ hi b => decRound_encRound_between b rk hi) (encRound b rk 0)
  rw [cipher_eq_encRounds, invCipher_eq_decRounds, decRound_encRound_ten, hmiddle,
    decRound_encRound_zero]

/-! Encryption after decryption, round by round, from the first round key to the last. -/

theorem encRound_decRound_zero :
    encRound (decRound b rk 0) rk 0 = invSubBytes (invShiftRows b) := by
  rw [encRound_zero, decRound_zero, addRoundKey_addRoundKey]

theorem encRound_decRound_between {i : RoundIndex} (hi : i ∈ middleRounds) :
    encRound (invSubBytes (invShiftRows (decRound b rk i))) rk i =
      invSubBytes (invShiftRows b) := by
  obtain ⟨h0, h10⟩ := ne_of_mem_middleRounds hi
  rw [encRound_between _ _ h0 h10, decRound_between _ _ h0 h10]
  simp

theorem encRound_decRound_ten :
    encRound (invSubBytes (invShiftRows (decRound b rk 10))) rk 10 = b := by
  rw [encRound_ten, decRound_ten]
  simp

theorem cipher_invCipher : cipher (invCipher b rk) rk = b := by
  have hmiddle := foldl_reverse_foldl (f := fun b i => decRound b rk i)
    (g := fun b i => encRound b rk i) (c := fun b => invSubBytes (invShiftRows b))
    (l := middleRounds.reverse)
    (fun _ hi b => encRound_decRound_between b rk (List.mem_reverse.1 hi)) (decRound b rk 10)
  rw [List.reverse_reverse] at hmiddle
  rw [invCipher_eq_decRounds, cipher_eq_encRounds, encRound_decRound_zero, hmiddle,
    encRound_decRound_ten]

end RoundTrip

/-! ### The completion of the commands (30_encoding.md R101) -/

/-- Completing, the command puts `f` of STATE and the schedule and ends. -/
def CompletesWith (i : Instr) (f : Block → Schedule → Block) : Prop :=
  ∀ s : State, s.phase = .completing → exec i s = .next (s.putState (f s.state s.rk)).finish

theorem completesWith_encrypt (x : Nibble) : CompletesWith (.encrypt x) cipher := fun _ hp =>
  runCommand_completing hp 0x2 x fun s => s.putState (cipher s.state s.rk)

theorem completesWith_decrypt (x : Nibble) : CompletesWith (.decrypt x) invCipher := fun _ hp =>
  runCommand_completing hp 0x3 x fun s => s.putState (invCipher s.state s.rk)

theorem completesWith_encRound (i : RoundIndex) :
    CompletesWith (.encRound (BitVec.ofNat 4 i.val)) fun b rk => encRound b rk i := fun _ hp =>
  runIndexed_completing hp 0xB i fun i s => s.putState (encRound s.state s.rk i)

/-- The end of a command on STATE, as one record (R101). It is stated of any block, so that no proof
compares a pipeline with a field of the state. -/
theorem finish_putState (s : State) (b : Block) : (s.putState b).finish =
    { s with state := b, inflight := none, done := true, phase := .presented } := rfl

/-! ### A command issued and completed (30_encoding.md R98, R101) -/

/-- The CTRL write of any well-formed command but NOP puts it in flight (30_encoding.md R98), and
`rst_n` is high. -/
structure IdleWithSchedule (s : State) : Prop where
  rstN : s.rstN = true
  phase : s.phase = .presented
  sboxReady : s.sboxReady = true
  inflight : s.inflight = none
  keyValid : s.keyValid = true

/-- A command's end leaves the machine ready for the next command. -/
theorem IdleWithSchedule.putState_finish {s : State} (h : IdleWithSchedule s) (b : Block) :
    IdleWithSchedule (s.putState b).finish :=
  ⟨h.rstN, rfl, h.sboxReady, rfl, h.keyValid⟩

/-- The host writes the word of a command to CTRL and the Core completes it. -/
def issue (i : Instr) : List Event := [.host (.write 0x00 (encode i)), .core]

/-- With the S-box ready and `rst_n` high, the Core completes the command just launched. -/
theorem coreStep_launch {s : State} {i : Instr} (hrst : s.rstN = true)
    (hready : s.sboxReady = true) (hn : i ≠ .nop) :
    coreStep (s.launch i.code i.index) =
      exec i ((s.launch i.code i.index).withPhase .completing) :=
  coreStep_of_decode (s := s.launch i.code i.index) hrst hready rfl (decodeFields_code_index i) hn

/-- On an idle machine with a schedule, a well-formed command other than NOP is launched and then
completed: two steps, after which the machine runs on from its end. -/
theorem runSteps_issue {i : Instr} {f : Block → Schedule → Block} (hf : CompletesWith i f)
    (hn : i ≠ .nop) (hw : i.wellFormed = true) {s : State} (hs : IdleWithSchedule s)
    (rest : List Event) (n : Nat) :
    runSteps (n + 2) (s.withEvents (issue i ++ rest)) =
      runSteps n ((s.putState (f s.state s.rk)).finish.withEvents rest) := by
  have hb : s.busy = false := (not_busy_iff s).2 ⟨hs.sboxReady, hs.inflight⟩
  have hwrite : step (s.withEvents (issue i ++ rest)) =
      .next ((s.launch i.code i.index).withEvents (.core :: rest)) := by
    rw [step_ctrl (s := s.withEvents (issue i ++ rest)) hs.rstN hs.phase rfl, cmdField_encode,
      idxField_encode]
    exact congrArg _ (accept_launch (mt (code_eq_zero_iff i).1 hn) hb (not_isReserved_code i)
      ((wellFormed_iff i).1 hw) fun _ => hs.keyValid)
  have hcore : step ((s.launch i.code i.index).withEvents (.core :: rest)) =
      .next ((s.putState (f s.state s.rk)).finish.withEvents rest) := by
    rw [step_core_event]
    exact (coreStep_launch (s := s.withEvents rest) hs.rstN hs.sboxReady hn).trans (hf _ rfl)
  rw [runSteps_succ hwrite, runSteps_succ hcore]

/-- ENC_ROUNDs issued one after the other apply their rounds to STATE in that order. -/
theorem runSteps_encRounds (l : List RoundIndex) {s : State} (hs : IdleWithSchedule s) :
    ∃ t, runSteps (2 * l.length)
        (s.withEvents (l.flatMap fun i => issue (.encRound (BitVec.ofNat 4 i.val)))) = .next t ∧
      t.state = l.foldl (fun b i => encRound b s.rk i) s.state := by
  induction l generalizing s with
  | nil => exact ⟨_, rfl, rfl⟩
  | cons i l ih =>
    have hw : (Instr.encRound (BitVec.ofNat 4 i.val)).wellFormed = true :=
      (wellFormed_iff _).2 fun _ => by simp only [Instr.index, BitVec.toNat_ofNat]; omega
    rw [List.flatMap_cons, List.length_cons, Nat.mul_succ,
      runSteps_issue (completesWith_encRound i) nofun hw hs]
    exact ih (hs.putState_finish _)

/-! ### The obligations -/

/-- Settles O12: the arm of NOP answers the state it is given, whatever the phase. -/
theorem nopLeavesEverythingUnchanged : Obligations.NopLeavesEverythingUnchanged := fun _ => rfl

/-- Settles O14: completing, each of the two puts its pipeline of STATE and the schedule, and
ends. -/
theorem blockCommandsComplete : Obligations.BlockCommandsComplete := fun x s hp =>
  ⟨(completesWith_encrypt x s hp).trans (congrArg _ (finish_putState s _)),
    (completesWith_decrypt x s hp).trans (congrArg _ (finish_putState s _))⟩

/-- Settles O32: the eleven commands apply their rounds to STATE in order, which are the rounds of
Cipher. -/
theorem cipherIsElevenEncRounds : Obligations.CipherIsElevenEncRounds := by
  refine ⟨cipher_eq_foldl_encRound, fun s hrst hp hready hfl hkv => ?_⟩
  have hs : IdleWithSchedule s := ⟨hrst, hp, hready, hfl, hkv⟩
  obtain ⟨t, hrun, ht⟩ := runSteps_encRounds (List.finRange 11) hs
  refine ⟨t, _, hrun, runSteps_issue (completesWith_encrypt 0) nofun rfl hs [] 0, ?_, ?_⟩
  · rw [ht, ← cipher_eq_foldl_encRound, withEvents_state, finish_state, putState_state]
  · rw [withEvents_state, finish_state, putState_state]

/-- Settles O33: the rounds of InvCipher are those of Cipher, in the other order. -/
theorem invCipherIsElevenDecRounds : Obligations.InvCipherIsElevenDecRounds :=
  invCipher_eq_foldl_decRound

/-- Settles O34: each pipeline takes the rounds of the other back, under any schedule. -/
theorem invCipherInvertsCipher : Obligations.InvCipherInvertsCipher :=
  have hany (b : Block) (rk : Schedule) :
      invCipher (cipher b rk) rk = b ∧ cipher (invCipher b rk) rk = b :=
    ⟨invCipher_cipher b rk, cipher_invCipher b rk⟩
  ⟨hany, fun b k => hany b (keyExpansion k)⟩

/-- Settles O35: ENCRYPT and DECRYPT, issued one after the other, put InvCipher of Cipher of STATE
and write nothing else but DONE. -/
theorem encryptThenDecryptRestoresState : Obligations.EncryptThenDecryptRestoresState := by
  intro s hrst hp hready hfl hkv
  have hs : IdleWithSchedule s := ⟨hrst, hp, hready, hfl, hkv⟩
  have henc := runSteps_issue (completesWith_encrypt 0) nofun rfl hs (issue (.decrypt 0)) 2
  have hdec := runSteps_issue (completesWith_decrypt 0) nofun rfl
    (hs.putState_finish (cipher s.state s.rk)) [] 0
  refine ⟨_, henc.trans hdec, ?_⟩
  simp [invCipher_cipher]

end Sys2Proof.Machine.Laws
end

section
/-! SUPPORT. No agent's step stops the machine (60_exceptions.md R260): the Host and the Environment
go on from any state, and the Core from one whose command in flight passed acceptance (30_encoding.md
R98, R101). -/

namespace Sys2Proof.Machine.Laws

/-- A host access goes on from any state: a write is ignored while `rst_n` is low
(70_reset_and_hazards.md R290), and else refused, if at all, by a code in ERR (60_exceptions.md
R260). -/
theorem hostStep_total (a : BusAccess) (s : State) : ∃ t, hostStep a s = .next t := by
  cases a with
  | read off => exact ⟨_, rfl⟩
  | write off v =>
    cases hrst : s.rstN with
    | false => exact ⟨s, by simp [hostStep, hrst]⟩
    | true => exact ⟨_, (if_pos hrst).trans (busWrite_next off v s)⟩

/-- The Core's step goes on, if the pair in flight is one that acceptance lets through: only
CMD_DONE could fault, and "CMD_DONE always succeeds" (60_exceptions.md R265). -/
theorem coreStep_total {s : State} (hfl : ∀ c, s.inflight = some c → acceptable c s.keyValid) :
    ∃ t, coreStep s = .next t := by
  rcases coreKind_cases s with ⟨-, hs, -⟩ | ⟨-, hs, -⟩ | ⟨c, -, hs, -, -, hc⟩
  · exact ⟨s, hs⟩
  · exact ⟨s.genDone, hs⟩
  · rw [hs]
    exact cmdDone_total (hfl c hc) s

/-- Each agent's step goes on from a state that meets the invariant. -/
theorem takeEvent_total {s : State} (hinv : s.Inv) (e : Event) : ∃ t, takeEvent e s = .next t := by
  cases e with
  | host a => exact hostStep_total a s
  | core => exact coreStep_total hinv.flightAccepted
  | resetLow => exact ⟨s.holdReset, rfl⟩
  | reset => exact ⟨s.resetHardware, rfl⟩

/-- Settles O54: the step is the Core's with no event left, and else that of the first event's
agent, from a state that meets the invariant as well. -/
theorem invariantStatesNeverStop : Obligations.InvariantStatesNeverStop := by
  intro s hinv
  cases hev : s.events with
  | nil =>
    rw [goesOn, step_of_no_event hev]
    exact coreStep_total hinv.flightAccepted
  | cons e rest =>
    rw [goesOn, step, takeStep, hev]
    exact takeEvent_total (inv_withEvents hinv rest) e

end Sys2Proof.Machine.Laws
end

section
/-! SUPPORT. RESET and the pin `rst_n` (70_reset_and_hazards.md R290), and what the registers read
right after RESET (R291). -/

namespace Sys2Proof.Machine.Laws

/-! ### The block that RESET puts in KEY and STATE (10_state.md R22, R23) -/

@[simp] theorem byte_zeroBlock : ∀ i : Fin 16, zeroBlock.byte i = 0 := by decide

@[simp] theorem word_zeroBlock : ∀ k : Fin 4, zeroBlock.word k = 0 := by decide

/-! ### The steps of the Environment, and of the Host while `rst_n` is low -/

section Events
variable {s : State}

/-- With an event first, the machine takes that event's step at the state with it taken. -/
theorem step_of_event {e : Event} {rest : List Event} (hev : s.events = e :: rest) :
    step s = takeEvent e (s.withEvents rest) := by
  rw [step, takeStep, hev]

/-- While `rst_n` is low a write changes nothing (70_reset_and_hazards.md R290). -/
theorem hostStep_write_low (hrst : s.rstN = false) (off : Offset) (v : Word) :
    hostStep (.write off v) s = .next s := by
  simp [hostStep, hrst]

/-- While `rst_n` is low a read returns 0 (70_reset_and_hazards.md R290). -/
theorem hostStep_read_low (hrst : s.rstN = false) (off : Offset) :
    hostStep (.read off) s = .next (s.latch 0) := by
  simp [hostStep, hrst]

/-- From offset 0x08 on stand only KEY, STATE, RK and reserved offsets (20_memory.md R61), so every
read there returns 0 while the three hold their reset values. -/
theorem busRead_of_zero_data (hkey : s.key = zeroBlock) (hstate : s.state = zeroBlock)
    (hrk : s.rk = Vector.replicate 11 zeroBlock) {off : Offset} (hoff : off.toNat ≥ 0x08) :
    busRead off s = 0 := by
  have hat := ofOffset_standsAt off
  cases hr : Reg.ofOffset off <;> rw [hr] at hat <;> rw [busRead_of_ofOffset hr] <;>
    simp only [standsAt, decide_eq_true_eq] at hat
  case key k => rw [readRegister, hkey, word_zeroBlock]
  case state k => rw [readRegister_state, hstate, word_zeroBlock, ite_self]
  case rk i k =>
    rw [readRegister_rk, hrk, Fin.getElem_fin, Vector.getElem_replicate, word_zeroBlock, ite_self]
  case reserved => rfl
  all_goals omega

end Events

/-! ### The obligations -/

/-- Settles O43: RESET leaves `resetHardware`, whatever the state was; the pin's fall is
`holdReset`; and the host's step is dead while the pin is low. -/
theorem resetRule : Obligations.ResetRule := by
  refine fun s rest =>
    ⟨fun hev => ⟨(s.withEvents rest).resetHardware, step_of_event hev, by simp⟩, step_of_event,
      fun hrst off v => ⟨fun hev => ?_, fun hev => ?_⟩⟩
  · exact (step_of_event hev).trans (hostStep_write_low (s := s.withEvents rest) hrst off v)
  · exact (step_of_event hev).trans (hostStep_read_low (s := s.withEvents rest) hrst off)

/-- Settles O44: the offsets below 0x08 one by one, the others because KEY, STATE and the schedule
are zero, before GEN_DONE and after it. -/
theorem registerValuesAfterReset : Obligations.RegisterValuesAfterReset :=
  ⟨rfl, rfl, rfl, rfl, rfl, by decide, rfl, fun _ => busRead_of_zero_data rfl rfl rfl,
    fun _ => busRead_of_zero_data rfl rfl rfl, rfl⟩

end Sys2Proof.Machine.Laws
end
